-- ==== Sys2Proof/Word.lean ====
section
/-! DEFINITION. The word types of the block (`00_scope.md` R9, R11; `30_encoding.md` R55, R65).
Every value the block holds is an unsigned bit string, so each type is a bit vector of the width the spec names. -/

namespace Sys2Proof

/-- A command word, `cmd_data[63:0]` (R10, R55). -/
abbrev CommandWord := BitVec 64

/-- A response word, `rsp_data[63:0]` (R10, R65). -/
abbrev ResponseWord := BitVec 64

/-- A byte, as a bridge from a narrower bus carries it (R40). -/
abbrev Byte := BitVec 8

/-- A voltage code, `V_W` = 16 bits (R9, R11). -/
abbrev Voltage := BitVec 16

/-- A frequency in UQ16.16 hertz, `F_W` = 32 bits (R9, R11). -/
abbrev Frequency := BitVec 32

/-- A parameter in thousandths or milliseconds, `P_W` = 16 bits (R9, R11). -/
abbrev Param := BitVec 16

/-- A time in milliseconds, `T_W` = 32 bits (R9, R11). -/
abbrev Time := BitVec 32

/-- An amplitude or a duty, 0 to 65535 (R11). -/
abbrev Amplitude := BitVec 16

/-- A channel number, 0 to `N_CH - 1` = 2 (R9). -/
abbrev Channel := Fin 3

/-- A table entry number, 0 to `N_NOTES - 1` = 23 (R9). -/
abbrev EntryIndex := Fin 24

/-- One channel's calibration table: 24 voltage codes (R27). -/
abbrev CalTable := Vector Voltage 24

/-- The note table that all channels share: 24 frequencies (R28). -/
abbrev NoteTable := Vector Frequency 24

end Sys2Proof
end

