-- ==== Sys2Proof/Syntax.lean ====
section
/-! DEFINITION. The command set: one constructor per row of `spec/opcode_table.json` (`30_encoding.md` R58, R59).
Register-like operands are names, so a term cannot hold a channel 3, a SEL without a meaning or an entry past 23. -/

namespace Sys2Proof

/-- A field of a parameter set, the SEL operand of SETP, RDPS and RDPA (R24, R57). -/
inductive ParamField where
  /-- SEL 0, `ML` max level. -/
  | ml
  /-- SEL 1, `DC` duty cycle. -/
  | dc
  /-- SEL 2, `SM` slide mode. -/
  | sm
  /-- SEL 3, `AT` attack. -/
  | att
  /-- SEL 4, `DE` decay. -/
  | de
  /-- SEL 5, `SU` sustain. -/
  | su
  /-- SEL 6, `RE` release. -/
  | re
deriving DecidableEq, Repr

/-- A view of a channel, the SEL operand of RDCH (R38, R57). -/
inductive ChannelView where
  /-- SEL 0, the status bits. -/
  | status
  /-- SEL 1, `ON_T`. -/
  | onTime
  /-- SEL 2, `OFF_T`. -/
  | offTime
  /-- SEL 3, `FREQ_OUT`. -/
  | freq
  /-- SEL 4, `DUTY_OUT`. -/
  | duty
deriving DecidableEq, Repr

/-- A command of the block (R58). -/
inductive Instr where
  /-- MAPQ `c, v`: quantized pitch map, a query (R79). -/
  | mapq (c : Channel) (v : Voltage)
  /-- MAPI `c, v`: interpolated pitch map, a query (R80). -/
  | mapi (c : Channel) (v : Voltage)
  /-- ENVQ `c, t`: the envelope level, a query (R91). -/
  | envq (c : Channel) (t : Time)
  /-- TICK `c, v, t`: one channel runtime tick (R100). -/
  | tick (c : Channel) (v : Voltage) (t : Time)
  /-- SETP `field, value`: write one field of STAGE (R104). -/
  | setp (f : ParamField) (v : Param)
  /-- APPLY: replace ACTIVE by the derived copy of STAGE (R106). -/
  | apply
  /-- RDPS `field`: read one field of STAGE (R107). -/
  | rdps (f : ParamField)
  /-- RDPA `field`: read one field of ACTIVE (R108). -/
  | rdpa (f : ParamField)
  /-- RDCH `c, view`: read one view of a channel (R109). -/
  | rdch (c : Channel) (view : ChannelView)
  /-- RDCAL `c, i`: read one calibration entry (R110). -/
  | rdcal (c : Channel) (i : EntryIndex)
  /-- RDNOTE `i`: read one note entry (R111). -/
  | rdnote (i : EntryIndex)
deriving DecidableEq, Repr

end Sys2Proof
end

