-- ==== Sys2Proof/WellFormed.lean ====
section
/-! DEFINITION. Which commands have a legal encoding. The operand types already exclude channel 3, SEL values without
a meaning and entries past 23 (`30_encoding.md` R62 (c), (d), R63); the value check of SETP is the one that is left. -/

namespace Sys2Proof

/-- R62 (e): SETP of the slide mode takes the values 0 and 1 only. Every other command passes. -/
def Instr.wellFormed : Instr → Bool
  | .setp .sm v => decide (v.toNat ≤ 1)
  | .setp .ml _ | .setp .dc _ | .setp .att _ | .setp .de _ | .setp .su _ | .setp .re _ => true
  | .mapq _ _ | .mapi _ _ | .envq _ _ | .tick _ _ _ | .apply => true
  | .rdps _ | .rdpa _ | .rdch _ _ | .rdcal _ _ | .rdnote _ => true

/-- The command has a legal encoding. -/
abbrev Instr.WellFormed (i : Instr) : Prop := i.wellFormed = true

end Sys2Proof
end

