-- ==== Sys2Proof/Decode.lean ====
section
/-! DEFINITION. The decoder of `30_encoding.md` R67, total on every 64-bit word, and after it the encoder, both from the
field layout of R55 and the field-use table of R58. At the end stand the bridge of R40 and the host's reading of a
table word. -/

namespace Sys2Proof

/-- The errors a command word can raise (R62, R63, R119). -/
inductive DecodeError where
  /-- ILLEGAL, status 1: the word names no command, or names one with an encoding it does not allow (R113). -/
  | illegal
  /-- BAD_CH, status 2: channel 3 on a command that uses CH (R114). -/
  | badCh
  /-- BAD_IDX, status 3: an entry past 23 on RDCAL or RDNOTE (R115). -/
  | badIdx
deriving DecidableEq, Repr

/-! ## Fields of the command word (R55) -/

/-- `OP`, bits 63:58. -/
def opField (w : CommandWord) : BitVec 6 := w.extractLsb' 58 6

/-- `CH`, bits 57:56. -/
def chField (w : CommandWord) : BitVec 2 := w.extractLsb' 56 2

/-- `SEL`, bits 55:53. -/
def selField (w : CommandWord) : BitVec 3 := w.extractLsb' 53 3

/-- `IDX`, bits 52:48. -/
def idxField (w : CommandWord) : BitVec 5 := w.extractLsb' 48 5

/-- `V`, bits 47:32. -/
def vField (w : CommandWord) : BitVec 16 := w.extractLsb' 32 16

/-- `T`, bits 31:0. -/
def tField (w : CommandWord) : BitVec 32 := w.extractLsb' 0 32

/-- The command word made of its six fields (R55). -/
def packCommand (op : BitVec 6) (ch : BitVec 2) (sel : BitVec 3) (idx : BitVec 5) (v : BitVec 16) (t : BitVec 32) :
    CommandWord :=
  op ++ ch ++ sel ++ idx ++ v ++ t

/-! ## Opcodes (R58, R59) -/

/-- The eleven commands of the opcode map, without their operands. -/
inductive Opcode where
  | mapq | mapi | envq | tick | setp | apply | rdps | rdpa | rdch | rdcal | rdnote
deriving DecidableEq, Repr

/-- The OP value of a command (R58). -/
def opcodeBits : Opcode → BitVec 6
  | .mapq => 0x01#6
  | .mapi => 0x02#6
  | .envq => 0x04#6
  | .tick => 0x08#6
  | .setp => 0x10#6
  | .apply => 0x11#6
  | .rdps => 0x12#6
  | .rdpa => 0x13#6
  | .rdch => 0x20#6
  | .rdcal => 0x21#6
  | .rdnote => 0x22#6

/-- The command an OP value names; the other 53 values are reserved (R59). -/
def opcodeOfBits (op : BitVec 6) : Option Opcode :=
  [Opcode.mapq, .mapi, .envq, .tick, .setp, .apply, .rdps, .rdpa, .rdch, .rdcal, .rdnote].find? fun o =>
    opcodeBits o == op

/-- The mask column of R59: the bits of the word that the command fixes. -/
def opcodeMask : Opcode → CommandWord
  | .mapq => 0xFCFF0000FFFFFFFF#64
  | .mapi => 0xFCFF0000FFFFFFFF#64
  | .envq => 0xFCFFFFFF00000000#64
  | .tick => 0xFCFF000000000000#64
  | .setp => 0xFF1F0000FFFFFFFF#64
  | .apply => 0xFFFFFFFFFFFFFFFF#64
  | .rdps => 0xFF1FFFFFFFFFFFFF#64
  | .rdpa => 0xFF1FFFFFFFFFFFFF#64
  | .rdch => 0xFC1FFFFFFFFFFFFF#64
  | .rdcal => 0xFCE0FFFFFFFFFFFF#64
  | .rdnote => 0xFFE0FFFFFFFFFFFF#64

/-- `ZEROMASK(op)` of R67: the bits that must be zero for this command. -/
def zeroMask (o : Opcode) : CommandWord := opcodeMask o &&& 0x03FFFFFFFFFFFFFF#64

/-! ## Operands (R56, R57, R63) -/

/-- The channel that CH names; 3 names none (R63). -/
def channelOfBits (ch : BitVec 2) : Option Channel :=
  if h : ch.toNat < 3 then some ⟨ch.toNat, h⟩ else none

/-- The CH bits of a channel. -/
def channelBits (c : Channel) : BitVec 2 := BitVec.ofNat 2 c.val

/-- The table entry that IDX names; 24 to 31 name none (R63). -/
def entryOfBits (idx : BitVec 5) : Option EntryIndex :=
  if h : idx.toNat < 24 then some ⟨idx.toNat, h⟩ else none

/-- The IDX bits of a table entry. -/
def entryBits (i : EntryIndex) : BitVec 5 := BitVec.ofNat 5 i.val

/-- The parameter field that SEL names; 7 names none (R57). -/
def paramFieldOfBits (sel : BitVec 3) : Option ParamField :=
  match sel.toNat with
  | 0 => some .ml
  | 1 => some .dc
  | 2 => some .sm
  | 3 => some .att
  | 4 => some .de
  | 5 => some .su
  | 6 => some .re
  | _ => none

/-- The SEL bits of a parameter field (R57). -/
def paramFieldBits : ParamField → BitVec 3
  | .ml => 0#3
  | .dc => 1#3
  | .sm => 2#3
  | .att => 3#3
  | .de => 4#3
  | .su => 5#3
  | .re => 6#3

/-- The channel view that SEL names; 5 to 7 name none (R57). -/
def channelViewOfBits (sel : BitVec 3) : Option ChannelView :=
  match sel.toNat with
  | 0 => some .status
  | 1 => some .onTime
  | 2 => some .offTime
  | 3 => some .freq
  | 4 => some .duty
  | _ => none

/-- The SEL bits of a channel view (R57). -/
def channelViewBits : ChannelView → BitVec 3
  | .status => 0#3
  | .onTime => 1#3
  | .offTime => 2#3
  | .freq => 3#3
  | .duty => 4#3

/-! ## The decoder (R67) -/

/-- The CH operand, or BAD_CH. -/
def channelOperand (w : CommandWord) : Except DecodeError Channel :=
  match channelOfBits (chField w) with
  | some c => .ok c
  | none => .error .badCh

/-- The IDX operand, or BAD_IDX. -/
def entryOperand (w : CommandWord) : Except DecodeError EntryIndex :=
  match entryOfBits (idxField w) with
  | some i => .ok i
  | none => .error .badIdx

/-- The SEL operand of SETP, RDPS and RDPA, or ILLEGAL (R62 (c)). -/
def fieldOperand (w : CommandWord) : Except DecodeError ParamField :=
  match paramFieldOfBits (selField w) with
  | some f => .ok f
  | none => .error .illegal

/-- The SEL operand of RDCH, or ILLEGAL (R62 (d)). -/
def viewOperand (w : CommandWord) : Except DecodeError ChannelView :=
  match channelViewOfBits (selField w) with
  | some v => .ok v
  | none => .error .illegal

/-- SETP with its value check (R62 (e)). -/
def setpOperands (w : CommandWord) : Except DecodeError Instr :=
  match fieldOperand w with
  | .ok f => if (Instr.setp f (vField w)).wellFormed then .ok (.setp f (vField w)) else .error .illegal
  | .error e => .error e

/-- RDCH: the SEL check comes before the channel check (R67). -/
def rdchOperands (w : CommandWord) : Except DecodeError Instr :=
  match viewOperand w with
  | .ok view => (channelOperand w).map fun c => .rdch c view
  | .error e => .error e

/-- RDCAL: the channel check comes before the entry check (R67, R119). -/
def rdcalOperands (w : CommandWord) : Except DecodeError Instr :=
  match channelOperand w with
  | .ok c => (entryOperand w).map fun i => .rdcal c i
  | .error e => .error e

/-- The operands of a word whose opcode is known and whose unused fields are zero. -/
def decodeOperands (o : Opcode) (w : CommandWord) : Except DecodeError Instr :=
  match o with
  | .mapq => (channelOperand w).map fun c => .mapq c (vField w)
  | .mapi => (channelOperand w).map fun c => .mapi c (vField w)
  | .envq => (channelOperand w).map fun c => .envq c (tField w)
  | .tick => (channelOperand w).map fun c => .tick c (vField w) (tField w)
  | .setp => setpOperands w
  | .apply => .ok .apply
  | .rdps => (fieldOperand w).map .rdps
  | .rdpa => (fieldOperand w).map .rdpa
  | .rdch => rdchOperands w
  | .rdcal => rdcalOperands w
  | .rdnote => (entryOperand w).map .rdnote

/-- `Decode(w)` of R67: the command the word names, or the one error status of R119. -/
def decode (w : CommandWord) : Except DecodeError Instr :=
  match opcodeOfBits (opField w) with
  | none => .error .illegal
  | some o => if w &&& zeroMask o = 0#64 then decodeOperands o w else .error .illegal

/-! ## The encoder (R55, R58) -/

/-- The opcode of a command. -/
def Instr.opcode : Instr → Opcode
  | .mapq _ _ => .mapq
  | .mapi _ _ => .mapi
  | .envq _ _ => .envq
  | .tick _ _ _ => .tick
  | .setp _ _ => .setp
  | .apply => .apply
  | .rdps _ => .rdps
  | .rdpa _ => .rdpa
  | .rdch _ _ => .rdch
  | .rdcal _ _ => .rdcal
  | .rdnote _ => .rdnote

/-- The one word of a command: its used fields as R58 lists them, every other field zero. -/
def encode (i : Instr) : CommandWord :=
  match i with
  | .mapq c v => packCommand 0x01#6 (channelBits c) 0#3 0#5 v 0#32
  | .mapi c v => packCommand 0x02#6 (channelBits c) 0#3 0#5 v 0#32
  | .envq c t => packCommand 0x04#6 (channelBits c) 0#3 0#5 0#16 t
  | .tick c v t => packCommand 0x08#6 (channelBits c) 0#3 0#5 v t
  | .setp f v => packCommand 0x10#6 0#2 (paramFieldBits f) 0#5 v 0#32
  | .apply => packCommand 0x11#6 0#2 0#3 0#5 0#16 0#32
  | .rdps f => packCommand 0x12#6 0#2 (paramFieldBits f) 0#5 0#16 0#32
  | .rdpa f => packCommand 0x13#6 0#2 (paramFieldBits f) 0#5 0#16 0#32
  | .rdch c view => packCommand 0x20#6 (channelBits c) (channelViewBits view) 0#5 0#16 0#32
  | .rdcal c i => packCommand 0x21#6 (channelBits c) 0#3 (entryBits i) 0#16 0#32
  | .rdnote i => packCommand 0x22#6 0#2 0#3 (entryBits i) 0#16 0#32

/-! ## The bridge from a narrower bus (R40)

Outside the block, and no rule of the block rests on it; it is the one byte order the spec fixes. -/

/-- Two 32-bit halves, the low half first, make one 64-bit word. -/
def wordOfHalves (low high : BitVec 32) : BitVec 64 := high ++ low

/-- Four bytes, byte k at bits 8k+7 to 8k, make one half. -/
def halfOfBytes (b0 b1 b2 b3 : Byte) : BitVec 32 := b3 ++ b2 ++ b1 ++ b0

/-- The eight bytes of a word in the order the bridge carries them. -/
def bytesOfWord (w : BitVec 64) : List Byte :=
  [w.extractLsb' 0 8, w.extractLsb' 8 8, w.extractLsb' 16 8, w.extractLsb' 24 8,
    w.extractLsb' 32 8, w.extractLsb' 40 8, w.extractLsb' 48 8, w.extractLsb' 56 8]

/-- The word the block sees once both halves are present: none before eight bytes have come, none for more. -/
def wordOfBytes : List Byte → Option CommandWord
  | [b0, b1, b2, b3, b4, b5, b6, b7] => some (wordOfHalves (halfOfBytes b0 b1 b2 b3) (halfOfBytes b4 b5 b6 b7))
  | _ => none

/-- Why a byte string is no command. -/
inductive ByteDecodeError where
  /-- Not exactly the eight bytes of one command word (R64). -/
  | notOneWord
  /-- The word is rejected by the decoder (R67). -/
  | rejected (e : DecodeError)
deriving DecidableEq, Repr

/-- The decoder on bytes, total on any byte string. -/
def decodeBytes (bs : List Byte) : Except ByteDecodeError Instr :=
  match wordOfBytes bs with
  | none => .error .notOneWord
  | some w =>
    match decode w with
    | .ok i => .ok i
    | .error e => .error (.rejected e)

/-- The instruction the decoder reads from an instruction whose `nbits` low bits are those of `w` and whose other bits
are 0. The block takes whole 64-bit words in parallel, bit 0 least significant (R39), so the number is the word; a number
that does not fit 64 bits is no command (R64; DEDUCED, assumption log 11). -/
def decodeTableWord (nbits w : Nat) : Option Instr :=
  if w % 2 ^ nbits < 2 ^ 64 then
    match decode (BitVec.ofNat 64 (w % 2 ^ nbits)) with
    | .ok i => some i
    | .error _ => none
  else none

end Sys2Proof
end

