-- ==== Sys2Proof/Config.lean ====
section
/-! DEFINITION. What one built block fixes (`00_scope.md` R9) and the one value the spec leaves free on a port.
A constant without a body is an OPEN parameter or a free value: nothing can be proved of its value. -/

namespace Sys2Proof.Config

/-- `AMP_MAX`, the largest amplitude and duty (R9). -/
def ampMax : Nat := 65535

/-- `EPS_MS`, the minimum attack, decay and release in ms (R9, R105). -/
def epsMs : Nat := 1

/-- `GATE_TH`, the gate threshold as a voltage code (R9, R93). -/
def gateTh : Nat := 983

/-- `FREQ_MAX`, the largest frequency a 32-bit UQ16.16 value holds (R11, R77). -/
def freqMax : Int := 4294967295

/-- `CAL_INIT[c][i]`, OPEN: the calibration tables the block is built with (R9, R27; DESIGN CHOICE, safe, assumption log 1). -/
opaque calInit : Vector CalTable 3

/-- `NOTE_INIT[i]`, OPEN: the note table the block is built with (R9, R28; DESIGN CHOICE, safe, assumption log 1). -/
opaque noteInit : NoteTable

/-- The value on `rsp_data` in a cycle in which `rsp_valid` is 0: any value, free for each cycle (R52;
DESIGN CHOICE, safe, assumption log 4). -/
opaque rspDataWhileInvalid : Nat → ResponseWord

end Sys2Proof.Config
end

