-- ==== Sys2Proof/Machine/State.lean ====
section
/-! DEFINITION. The state of the block as plain data (`10_state.md` R16 to R29), the host's pins as data the step reads,
and the reasons a step can stop. -/

namespace Sys2Proof.Machine

/-- The slide mode bit `SM` (R11, R24). -/
inductive SlideMode where
  /-- 0, Quantized, the source's token "Q". -/
  | quantized
  /-- 1, Interpolated, the source's token "noQ". -/
  | interpolated
deriving DecidableEq, Repr

/-- The envelope phase (R81); its response codes are those of R65. -/
inductive EnvPhase where
  | idle | attack | decay | sustain | release
deriving DecidableEq, Repr

/-- A parameter set, STAGE or ACTIVE (R16, R24). -/
structure ParamSet where
  /-- `ML`, thousandths. -/
  maxLevel : Param
  /-- `DC`, thousandths. -/
  dutyCycle : Param
  /-- `SM`. -/
  slideMode : SlideMode
  /-- `AT`, ms. -/
  attack : Param
  /-- `DE`, ms. -/
  decay : Param
  /-- `SU`, thousandths. -/
  sustain : Param
  /-- `RE`, ms. -/
  release : Param
deriving DecidableEq, Repr

/-- The state of one channel (R16 to R22). -/
structure ChannelState where
  /-- `GATE[c]` (R17). -/
  gate : Bool
  /-- `ON_V[c]` (R18). -/
  onV : Bool
  /-- `ON_T[c]` (R18). -/
  onT : Time
  /-- `OFF_V[c]` (R19). -/
  offV : Bool
  /-- `OFF_T[c]` (R19). -/
  offT : Time
  /-- `FREQ_OUT[c]` (R21). -/
  freqOut : Frequency
  /-- `FVALID[c]` (R21). -/
  fvalid : Bool
  /-- `DUTY_OUT[c]` (R22). -/
  dutyOut : Amplitude
deriving DecidableEq, Repr

/-- The two constant tables (R27, R28). The step reads them and never writes them (DESIGN CHOICE, assumption log 1). -/
structure Tables where
  /-- `CAL[c][i]`. -/
  cal : Vector CalTable 3
  /-- `NOTE[i]`. -/
  note : NoteTable
deriving DecidableEq, Repr

/-- An output event of a command (R13, R50). -/
inductive OutputEvent where
  /-- `emit freq_set(c, f)`. -/
  | freqSet (c : Channel) (f : Frequency)
  /-- `emit duty_set(c, d)`. -/
  | dutySet (c : Channel) (d : Amplitude)
deriving DecidableEq, Repr

/-- The input pins of the block in one clock cycle, sampled at the rising edge that ends it (R10). -/
structure HostInputs where
  /-- `rst`. -/
  rst : Bool
  /-- `cmd_valid`. -/
  cmdValid : Bool
  /-- `cmd_data`. -/
  cmdData : CommandWord
  /-- `rsp_ready`. -/
  rspReady : Bool
deriving DecidableEq, Repr

/-- The pins of a host that does nothing: no reset, no command offered, no response taken (DESIGN CHOICE, assumption log 3). -/
def HostInputs.idle : HostInputs :=
  { rst := false, cmdValid := false, cmdData := 0#64, rspReady := false }

/-- The state of the machine between two rising edges of `clk`. -/
structure State where
  /-- The three channels (R16 to R22). -/
  channels : Vector ChannelState 3
  /-- `STAGE` (R25). -/
  stage : ParamSet
  /-- `ACTIVE` (R26). -/
  active : ParamSet
  /-- The constant tables (R27, R28). -/
  tables : Tables
  /-- `BUSY` (R29). -/
  busy : Bool
  /-- `RSPBUF` (R29). -/
  rspBuf : ResponseWord
  /-- The register behind `rsp_valid` (R48, R52). -/
  rspValid : Bool
  /-- The command word sampled at the acceptance edge (R49). -/
  command : CommandWord
  /-- Edges that pass before the edge that completes the accepted command (R51). -/
  wait : Nat
  /-- The output events of the last edge, in order; the pulses `freq_set` and `duty_set` of this cycle (R50, R54). -/
  events : List OutputEvent
  /-- MODEL'S OWN: the pins in this cycle and in the cycles to come; the host is idle after the last one listed
  (DESIGN CHOICE, assumption log 3). -/
  inputs : List HostInputs
  /-- MODEL'S OWN: `LAT - 1` of the commands to come; `LAT` is 1 after the last one listed (DESIGN CHOICE, assumption log 2). -/
  latencies : List Nat
  /-- MODEL'S OWN: how many edges have passed, the index of the free value on `rsp_data` (DESIGN CHOICE, assumption log 4). -/
  edges : Nat
deriving DecidableEq, Repr

/-- No step of this block ends in a fault: it has no trap mechanism and every error is a response status (R112), so the
type has no constructor (DEDUCED, assumption log 12). -/
inductive Fault where
deriving DecidableEq, Repr

/-- Why a step has no meaning. -/
inductive Refusal where
  /-- Raised by `exec` alone, for a command that has no meaning yet; safe. No arm raises it: every command has its
  meaning. -/
  | notModelled (mnemonic : String)
deriving DecidableEq, Repr

/-- A channel after reset: closed, no timestamps, silent (R17 to R22, R128). -/
def ChannelState.reset : ChannelState :=
  { gate := false, onV := false, onT := 0#32, offV := false, offT := 0#32,
    freqOut := 0#32, fvalid := false, dutyOut := 0#16 }

/-- STAGE after reset: the default patch (R24, column STAGE reset). -/
def ParamSet.stageReset : ParamSet :=
  { maxLevel := 300#16, dutyCycle := 300#16, slideMode := .quantized, attack := 0#16, decay := 400#16,
    sustain := 200#16, release := 400#16 }

/-- ACTIVE after reset (R24, column ACTIVE reset). -/
def ParamSet.activeReset : ParamSet :=
  { maxLevel := 300#16, dutyCycle := 300#16, slideMode := .quantized, attack := 1#16, decay := 400#16,
    sustain := 200#16, release := 400#16 }

/-- The machine right after reset (R127, R128), with the tables it was built with and a host that does nothing.
`RSPBUF`, the sampled command and its wait have no reset value in the spec (DESIGN CHOICE 0, unsafe, assumption log 5). -/
def State.reset : State :=
  { channels := #v[.reset, .reset, .reset]
    stage := .stageReset
    active := .activeReset
    tables := { cal := Config.calInit, note := Config.noteInit }
    busy := false
    rspBuf := 0#64
    rspValid := false
    command := 0#64
    wait := 0
    events := []
    inputs := []
    latencies := []
    edges := 0 }

end Sys2Proof.Machine
end

