-- ==== Sys2Proof/Machine/Operands.lean ====
section
/-! DEFINITION. The index spaces a command reaches (`20_memory.md` R34 to R38, R42) and the narrowing of exact integers
to a register's width (`00_scope.md` R14). -/

namespace Sys2Proof.Machine

/-- `S.X[c]`: the state of channel c. -/
def State.chan (s : State) (c : Channel) : ChannelState := s.channels[c]

/-- Channel c replaced whole; no other channel changes (R23). -/
def State.setChan (s : State) (c : Channel) (x : ChannelState) : State :=
  { s with channels := s.channels.set c x }

/-- The calibration table of channel c, as one value for the functions that scan it (R35). -/
def State.calTable (s : State) (c : Channel) : CalTable := s.tables.cal[c]

/-- `CalRead(c, i)` (R13). -/
def calRead (s : State) (c : Channel) (i : EntryIndex) : Voltage := (s.calTable c)[i]

/-- `NoteRead(i)` (R13). -/
def noteRead (s : State) (i : EntryIndex) : Frequency := s.tables.note[i]

/-- The slide mode as a 16-bit field value, bits 15:1 zero (R24, R42). -/
def slideModeBits : SlideMode → Param
  | .quantized => 0#16
  | .interpolated => 1#16

/-- The slide mode that bit 0 of a value gives (R104; DEDUCED for a value above 1, assumption log 13). -/
def slideModeOfBits (v : Param) : SlideMode :=
  if v.getLsbD 0 then .interpolated else .quantized

/-- A field of a parameter set, read whole (R37, R42). -/
def ParamSet.field (p : ParamSet) : ParamField → Param
  | .ml => p.maxLevel
  | .dc => p.dutyCycle
  | .sm => slideModeBits p.slideMode
  | .att => p.attack
  | .de => p.decay
  | .su => p.sustain
  | .re => p.release

/-- A field of a parameter set, written whole (R104). -/
def ParamSet.setField (p : ParamSet) (f : ParamField) (v : Param) : ParamSet :=
  match f with
  | .ml => { p with maxLevel := v }
  | .dc => { p with dutyCycle := v }
  | .sm => { p with slideMode := slideModeOfBits v }
  | .att => { p with attack := v }
  | .de => { p with decay := v }
  | .su => { p with sustain := v }
  | .re => { p with release := v }

/-- The status bits of a channel: bit 0 GATE, bit 1 ON_V, bit 2 OFF_V, bit 3 FVALID (R109). -/
def ChannelState.statusBits (x : ChannelState) : BitVec 4 :=
  BitVec.ofBool x.fvalid ++ BitVec.ofBool x.offV ++ BitVec.ofBool x.onV ++ BitVec.ofBool x.gate

/-- A view of a channel, 32 bits (R38, R42, R109). -/
def ChannelState.view (x : ChannelState) : ChannelView → BitVec 32
  | .status => x.statusBits.setWidth 32
  | .onTime => x.onT
  | .offTime => x.offT
  | .freq => x.freqOut
  | .duty => x.dutyOut.setWidth 32

/-- An exact non-negative integer clamped to 65535 and held in 16 bits (R89, R99). -/
def clampAmplitude (raw : Nat) : Amplitude := BitVec.ofNat 16 (min raw Config.ampMax)

/-- `trunc_div(a, b)`, the quotient rounded toward zero (R14). -/
def truncDiv (a b : Int) : Int := Int.tdiv a b

end Sys2Proof.Machine
end

