-- ==== Sys2Proof/Machine/Flags.lean ====
section
/-! DEFINITION. The flags of a command and the response word that carries them (`30_encoding.md` R65, R66). The block has
no persistent flag register: a flag lives in the response of its command only (`10_state.md` R32). -/

namespace Sys2Proof.Machine

/-- The pitch map's flags `fl` (R70). -/
structure MapFlags where
  /-- The nearest entry is the first or the last (R75). -/
  bnd : Bool
  /-- The result was saturated (R77). -/
  sat : Bool
  /-- The segment has zero width (R77). -/
  deg : Bool
deriving DecidableEq, Repr

/-- `{BND=0, SAT=0, DEG=0}`. -/
def noMapFlags : MapFlags := { bnd := false, sat := false, deg := false }

/-- The status of a response, `ST` (R65). -/
inductive Status where
  | ok | illegal | badCh | badIdx
deriving DecidableEq, Repr

/-- The code of a status (R65). -/
def statusCode : Status → BitVec 2
  | .ok => 0#2
  | .illegal => 1#2
  | .badCh => 2#2
  | .badIdx => 3#2

/-- The status that reports a decode error (R113 to R115). -/
def statusOfError : DecodeError → Status
  | .illegal => .illegal
  | .badCh => .badCh
  | .badIdx => .badIdx

/-- The code of an envelope phase; 5 to 7 never occur (R65). -/
def phaseCode : EnvPhase → BitVec 3
  | .idle => 0#3
  | .attack => 1#3
  | .decay => 2#3
  | .sustain => 3#3
  | .release => 4#3

/-- The fields of a response (R65). A field that a command does not set is 0, and `ST` is OK. -/
structure Response where
  op : BitVec 6
  ch : BitVec 2
  st : Status := .ok
  phase : EnvPhase := .idle
  flags : MapFlags := noMapFlags
  fall : Bool := false
  rise : Bool := false
  gate : Bool := false
  idx : BitVec 5 := 0#5
  data : BitVec 32 := 0#32
deriving DecidableEq, Repr

/-- The response word: the fields from bit 63 down to bit 0 (R65). -/
def Response.word (r : Response) : ResponseWord :=
  r.op ++ r.ch ++ statusCode r.st ++ phaseCode r.phase ++ BitVec.ofBool r.flags.deg ++ BitVec.ofBool r.flags.sat ++
    BitVec.ofBool r.flags.bnd ++ BitVec.ofBool r.fall ++ BitVec.ofBool r.rise ++ BitVec.ofBool r.gate ++ r.idx ++
    0#8 ++ r.data

/-- The error response to a word: its OP and CH bits and the status, every other field 0 (R66). -/
def errorResponse (w : CommandWord) (e : DecodeError) : Response :=
  { op := opField w, ch := chField w, st := statusOfError e }

/-! ## Fields of a response word (R65) -/

/-- `R_OP`, bits 63:58. -/
def rspOp (w : ResponseWord) : BitVec 6 := w.extractLsb' 58 6

/-- `R_CH`, bits 57:56. -/
def rspCh (w : ResponseWord) : BitVec 2 := w.extractLsb' 56 2

/-- `ST`, bits 55:54. -/
def rspSt (w : ResponseWord) : BitVec 2 := w.extractLsb' 54 2

/-- `PHASE`, bits 53:51. -/
def rspPhase (w : ResponseWord) : BitVec 3 := w.extractLsb' 51 3

/-- `DEG`, bit 50. -/
def rspDeg (w : ResponseWord) : Bool := w.getLsbD 50

/-- `SAT`, bit 49. -/
def rspSat (w : ResponseWord) : Bool := w.getLsbD 49

/-- `BND`, bit 48. -/
def rspBnd (w : ResponseWord) : Bool := w.getLsbD 48

/-- `FALL`, bit 47. -/
def rspFall (w : ResponseWord) : Bool := w.getLsbD 47

/-- `RISE`, bit 46. -/
def rspRise (w : ResponseWord) : Bool := w.getLsbD 46

/-- `GATE`, bit 45. -/
def rspGate (w : ResponseWord) : Bool := w.getLsbD 45

/-- `R_IDX`, bits 44:40. -/
def rspIdx (w : ResponseWord) : BitVec 5 := w.extractLsb' 40 5

/-- The bits 39:32, always 0. -/
def rspZero (w : ResponseWord) : BitVec 8 := w.extractLsb' 32 8

/-- `DATA`, bits 31:0. -/
def rspDataField (w : ResponseWord) : BitVec 32 := w.extractLsb' 0 32

end Sys2Proof.Machine
end

