-- ==== Sys2Proof/Machine/Ops.lean ====
section
/-! DEFINITION. The named operations on the state: how a command completes, how an error is reported, and what one rising
edge of `clk` does to the interface (`20_memory.md` R48 to R53, `60_exceptions.md` R117, `70_reset_and_hazards.md`
R127, R129). -/

namespace Sys2Proof.Machine

/-! ## Completion -/

/-- `respond(r)` at the completion edge, with the events the command emitted: the response is loaded into RSPBUF and
`rsp_valid` becomes 1 (R48, R50). -/
def complete (s : State) (r : Response) (evs : List OutputEvent) : State :=
  { s with rspBuf := r.word, rspValid := true, events := evs }

/-- `raise e` (R13, R117): the whole of the block's "trap entry". The error response is given, nothing else changes and
no event is emitted. There is no return from it: the next command is executed like any other (R120). -/
def raiseError (s : State) (w : CommandWord) (e : DecodeError) : State :=
  complete s (errorResponse w e) []

/-! ## One rising edge of the clock -/

/-- The pins in the present cycle. -/
def State.pins (s : State) : HostInputs := s.inputs.headD HostInputs.idle

/-- What every edge does: the present cycle's pins are past, and a pulse of the last edge ends (R50). -/
def beginEdge (s : State) : State :=
  { s with inputs := s.inputs.tail, events := [], edges := s.edges + 1 }

/-- A reset edge: every piece of state takes its reset value, an outstanding command or response is discarded, and no
pulse marks the change (R127, R129). The tables and what is outside the block take no part. -/
def resetEdge (s : State) : State :=
  { State.reset with
    tables := s.tables, inputs := s.inputs, latencies := s.latencies, edges := s.edges }

/-- Acceptance: the word is sampled and `BUSY` is set; the command completes `LAT` edges later (R49, R51). -/
def acceptCommand (s : State) (w : CommandWord) : State :=
  { s with busy := true, command := w, wait := s.latencies.headD 0, latencies := s.latencies.tail }

/-- The block is ready: it accepts a command that is offered and else holds its state (R49, R126). -/
def readyEdge (p : HostInputs) (s : State) : State :=
  if p.cmdValid then acceptCommand s p.cmdData else s

/-- The host takes the response: `rsp_valid` and `BUSY` become 0 (R52). -/
def takeResponse (s : State) : State := { s with rspValid := false, busy := false }

/-- The block offers a response: it holds it until the host takes it (R52, R53). -/
def respondingEdge (p : HostInputs) (s : State) : State :=
  if p.rspReady then takeResponse s else s

end Sys2Proof.Machine
end

