-- ==== Sys2Proof/Machine/Envelope.lean ====
section
/-! DEFINITION. The adsr_envelope sub-block and its command (`41_adsr_envelope.md`). Every phase formula is evaluated on
exact integers and truncated once (R84 to R89). -/

namespace Sys2Proof.Machine

/-- `e = (t - T0) mod 2^32` (R82). -/
def elapsed (t t0 : Time) : Nat := (t - t0).toNat

/-- ATTACK, `e < AT` (R84). -/
def attackRaw (p : ParamSet) (e : Nat) : Nat := e * p.maxLevel.toNat * 65535 / (p.attack.toNat * 1000)

/-- DECAY, with `d = e - AT` (R85). -/
def decayRaw (p : ParamSet) (d : Nat) : Nat :=
  (p.maxLevel.toNat * (p.decay.toNat - d) + p.sustain.toNat * d) * 65535 / (p.decay.toNat * 1000)

/-- SUSTAIN (R86). -/
def sustainRaw (p : ParamSet) : Nat := p.sustain.toNat * 65535 / 1000

/-- RELEASE, `e < RE` (R87). -/
def releaseRaw (p : ParamSet) (e : Nat) : Nat :=
  p.sustain.toNat * 65535 * (p.release.toNat - e) / (p.release.toNat * 1000)

/-- The raw level and the phase at elapsed time `e` after a note-on (R83). -/
def noteOnLevel (p : ParamSet) (e : Nat) : Nat × EnvPhase :=
  if e < p.attack.toNat then (attackRaw p e, .attack)
  else if e < p.attack.toNat + p.decay.toNat then (decayRaw p (e - p.attack.toNat), .decay)
  else (sustainRaw p, .sustain)

/-- The raw level and the phase at elapsed time `e` after a note-off (R83, R88). -/
def noteOffLevel (p : ParamSet) (e : Nat) : Nat × EnvPhase :=
  if e < p.release.toNat then (releaseRaw p e, .release) else (0, .idle)

/-- The raw level and the phase of a channel: the note-on test comes first (R83). -/
def rawLevel (x : ChannelState) (t : Time) (p : ParamSet) : Nat × EnvPhase :=
  if x.onV then noteOnLevel p (elapsed t x.onT)
  else if x.offV then noteOffLevel p (elapsed t x.offT)
  else (0, .idle)

/-- An amplitude and its phase, the result of `Level` (R81). -/
structure EnvResult where
  amp : Amplitude
  phase : EnvPhase
deriving DecidableEq, Repr

/-- `Level(c, t, P)` (R89). -/
def envLevel (x : ChannelState) (t : Time) (p : ParamSet) : EnvResult :=
  { amp := clampAmplitude (rawLevel x t p).1, phase := (rawLevel x t p).2 }

/-- The response of an envelope query (R91). -/
def envResponse (c : Channel) (l : EnvResult) : Response :=
  { op := 0x04#6, ch := channelBits c, phase := l.phase, data := l.amp.setWidth 32 }

/-- ENVQ (R91). -/
def execEnvq (c : Channel) (t : Time) (s : State) : Host.Outcome State Fault Refusal :=
  .next (complete s (envResponse c (envLevel (s.chan c) t s.active)) [])

end Sys2Proof.Machine
end

