-- ==== Sys2Proof/Machine/PitchMapper.lean ====
section
/-! DEFINITION. The pitch_mapper sub-block and its two commands (`40_pitch_mapper.md`). The functions take the
channel's calibration table and the note table as arguments, which are all they read (R70). -/

namespace Sys2Proof.Machine

/-- `d_i = |v - CAL[c][i]|`, exact (R71). -/
def calDistance (cal : CalTable) (v : Voltage) (i : EntryIndex) : Nat :=
  ((v.toNat : Int) - (cal[i].toNat : Int)).natAbs

/-- The scan of R72 over the entries still to visit: a strictly smaller distance replaces the best entry. -/
def nearestScan (cal : CalTable) (v : Voltage) : List EntryIndex → EntryIndex → EntryIndex
  | [], best => best
  | i :: rest, best =>
    if calDistance cal v i < calDistance cal v best then nearestScan cal v rest i else nearestScan cal v rest best

/-- `NearestIndex(v, c)` (R72): from entry 0, then entries 1 to 23 in ascending order. -/
def nearestIndex (cal : CalTable) (v : Voltage) : EntryIndex :=
  nearestScan cal v (List.finRange 24).tail 0

/-- The result triple of the pitch map (R70). -/
structure PitchResult where
  freq : Frequency
  idx : EntryIndex
  flags : MapFlags
deriving DecidableEq, Repr

/-- `MapQ(v, c)` (R74). -/
def mapQ (cal : CalTable) (note : NoteTable) (v : Voltage) : PitchResult :=
  { freq := note[nearestIndex cal v], idx := nearestIndex cal v, flags := noMapFlags }

/-- The neighbour of an interior entry: the one above when `v` lies above the entry's voltage, else the one below
(R76). The rule compares voltages, not table order. -/
def neighbour (cal : CalTable) (v : Voltage) (idx : EntryIndex) : EntryIndex :=
  if v.toNat > cal[idx].toNat then Fin.ofNat 24 (idx.val + 1) else Fin.ofNat 24 (idx.val - 1)

/-- `den`: the width of the segment from entry `idx` to entry `nb`, signed (R77). -/
def segmentWidth (cal : CalTable) (idx nb : EntryIndex) : Int :=
  (cal[nb].toNat : Int) - (cal[idx].toNat : Int)

/-- `r`: the interpolated frequency before saturation, rounded once toward zero (R77). -/
def interpolate (cal : CalTable) (note : NoteTable) (v : Voltage) (idx nb : EntryIndex) : Int :=
  (note[idx].toNat : Int) +
    truncDiv (((v.toNat : Int) - (cal[idx].toNat : Int)) * ((note[nb].toNat : Int) - (note[idx].toNat : Int)))
      (segmentWidth cal idx nb)

/-- The frequency register's value of an exact result, and whether it was saturated (R77). -/
def saturateFrequency (r : Int) : Frequency × Bool :=
  if r < 0 then (0#32, true)
  else if r > Config.freqMax then (BitVec.allOnes 32, true)
  else (BitVec.ofInt 32 r, false)

/-- The interpolation from entry `idx` toward entry `nb`: DEG on a zero-width segment, else the saturated value (R77). -/
def mapSegment (cal : CalTable) (note : NoteTable) (v : Voltage) (idx nb : EntryIndex) : PitchResult :=
  if segmentWidth cal idx nb = 0 then
    { freq := note[idx], idx := idx, flags := { bnd := false, sat := false, deg := true } }
  else
    { freq := (saturateFrequency (interpolate cal note v idx nb)).1, idx := idx,
      flags := { bnd := false, sat := (saturateFrequency (interpolate cal note v idx nb)).2, deg := false } }

/-- The interpolated map from its nearest entry: a boundary entry answers its note with BND (R75), an interior one
interpolates toward its neighbour (R76, R77). -/
def mapFrom (cal : CalTable) (note : NoteTable) (v : Voltage) (idx : EntryIndex) : PitchResult :=
  if idx = 0 ∨ idx = 23 then
    { freq := note[idx], idx := idx, flags := { bnd := true, sat := false, deg := false } }
  else mapSegment cal note v idx (neighbour cal v idx)

/-- `MapI(v, c)` (R75 to R77). -/
def mapI (cal : CalTable) (note : NoteTable) (v : Voltage) : PitchResult :=
  mapFrom cal note v (nearestIndex cal v)

/-- The pitch_mapper function in a slide mode (R70). -/
def pitchMap (cal : CalTable) (note : NoteTable) (sm : SlideMode) (v : Voltage) : PitchResult :=
  match sm with
  | .quantized => mapQ cal note v
  | .interpolated => mapI cal note v

/-- The response of a pitch query (R79, R80). -/
def pitchResponse (op : BitVec 6) (c : Channel) (m : PitchResult) : Response :=
  { op := op, ch := channelBits c, idx := entryBits m.idx, flags := m.flags, data := m.freq }

/-- MAPQ (R79). -/
def execMapq (c : Channel) (v : Voltage) (s : State) : Host.Outcome State Fault Refusal :=
  .next (complete s (pitchResponse 0x01#6 c (mapQ (s.calTable c) s.tables.note v)) [])

/-- MAPI (R80). -/
def execMapi (c : Channel) (v : Voltage) (s : State) : Host.Outcome State Fault Refusal :=
  .next (complete s (pitchResponse 0x02#6 c (mapI (s.calTable c) s.tables.note v)) [])

end Sys2Proof.Machine
end

