-- ==== Sys2Proof/Machine/GateAndPwm.lean ====
section
/-! DEFINITION. The gate_detector and pwm_controller sub-blocks and TICK, which runs one channel through all four
sub-blocks (`42_gate_and_pwm.md`). -/

namespace Sys2Proof.Machine

/-- The gate level of a voltage: at or above the threshold is open (R93). -/
def gateOpen (v : Voltage) : Bool := decide (Config.gateTh ≤ v.toNat)

/-- The result of `GateUpdate`: the channel and the two edge bits (R92). -/
structure GateResult where
  chan : ChannelState
  rise : Bool
  fall : Bool
deriving DecidableEq, Repr

/-- `GateUpdate(c, v, t)` (R97): every test reads the old gate bit. -/
def gateUpdate (x : ChannelState) (v : Voltage) (t : Time) : GateResult :=
  let rise := gateOpen v && !x.gate
  let fall := !gateOpen v && x.gate
  let x1 := if fall then { x with offV := true, offT := t, onV := false, onT := 0#32 } else x
  let x2 := if rise then { x1 with onV := true, onT := t, offV := false, offT := 0#32 } else x1
  { chan := { x2 with gate := gateOpen v }, rise := rise, fall := fall }

/-- `PwmDuty(amp, DC)` (R99). -/
def pwmDuty (amp : Amplitude) (dc : Param) : Amplitude := clampAmplitude (amp.toNat * dc.toNat / 1000)

/-- The pitch of a tick: the map of `v` in the slide mode when the gate is open, none when it is closed (R98). -/
def tickPitch (cal : CalTable) (note : NoteTable) (sm : SlideMode) (v : Voltage) (gate : Bool) : Option PitchResult :=
  if gate then some (pitchMap cal note sm v) else none

/-- The frequency drive: an open tick sets FREQ_OUT and FVALID, a closed one keeps them (R98). -/
def driveFrequency (x : ChannelState) : Option PitchResult → ChannelState
  | some m => { x with freqOut := m.freq, fvalid := true }
  | none => x

/-- The events of a tick in order: `freq_set` when the gate is open, then `duty_set` (R100). -/
def tickEvents (c : Channel) (duty : Amplitude) : Option PitchResult → List OutputEvent
  | some m => [.freqSet c m.freq, .dutySet c duty]
  | none => [.dutySet c duty]

/-- The nearest index of a tick, 0 when the gate is closed (R100). -/
def tickIdx : Option PitchResult → BitVec 5
  | some m => entryBits m.idx
  | none => 0#5

/-- The pitch flags of a tick, all 0 when the gate is closed (R100). -/
def tickFlags : Option PitchResult → MapFlags
  | some m => m.flags
  | none => noMapFlags

/-- The response of a tick (R100). -/
def tickResponse (c : Channel) (g : GateResult) (m : Option PitchResult) (l : EnvResult) (duty : Amplitude) :
    Response :=
  { op := 0x08#6, ch := channelBits c, phase := l.phase, gate := g.chan.gate, rise := g.rise, fall := g.fall,
    idx := tickIdx m, flags := tickFlags m, data := l.amp ++ duty }

/-- What a tick does: the channel it leaves, its response and its events. -/
structure TickResult where
  chan : ChannelState
  response : Response
  events : List OutputEvent
deriving DecidableEq, Repr

/-- The steps of TICK on a channel in state `x`, in order, each reading the writes before it (R100): gate update,
frequency drive, envelope level, duty drive. -/
def tickResult (cal : CalTable) (note : NoteTable) (p : ParamSet) (c : Channel) (x : ChannelState) (v : Voltage)
    (t : Time) : TickResult :=
  let g := gateUpdate x v t
  let m := tickPitch cal note p.slideMode v g.chan.gate
  let y := driveFrequency g.chan m
  let l := envLevel y t p
  let duty := pwmDuty l.amp p.dutyCycle
  { chan := { y with dutyOut := duty }, response := tickResponse c g m l duty, events := tickEvents c duty m }

/-- TICK (R100). -/
def execTick (c : Channel) (v : Voltage) (t : Time) (s : State) : Host.Outcome State Fault Refusal :=
  let r := tickResult (s.calTable c) s.tables.note s.active c (s.chan c) v t
  .next (complete (s.setChan c r.chan) r.response r.events)

end Sys2Proof.Machine
end

