-- ==== Sys2Proof/Machine/Parameters.lean ====
section
/-! DEFINITION. The parameter family (`43_parameters.md`): the staging set written field by field, and the atomic APPLY. -/

namespace Sys2Proof.Machine

/-- A time field clamped to the minimum `EPS_MS` (R105). -/
def clampTime (p : Param) : Param := BitVec.ofNat 16 (max p.toNat Config.epsMs)

/-- `Derive(P)` (R105). -/
def derive (p : ParamSet) : ParamSet :=
  { p with attack := clampTime p.attack, decay := clampTime p.decay, release := clampTime p.release }

/-- The response of a command that names no channel: OP and a result. `CH` of such a command is 0 (R58). -/
def dataResponse (op : BitVec 6) (data : BitVec 32) : Response := { op := op, ch := 0#2, data := data }

/-- SETP (R104). -/
def execSetp (f : ParamField) (v : Param) (s : State) : Host.Outcome State Fault Refusal :=
  .next (complete { s with stage := s.stage.setField f v } (dataResponse 0x10#6 0#32) [])

/-- APPLY (R106). -/
def execApply (s : State) : Host.Outcome State Fault Refusal :=
  .next (complete { s with active := derive s.stage } (dataResponse 0x11#6 0#32) [])

/-- RDPS (R107). -/
def execRdps (f : ParamField) (s : State) : Host.Outcome State Fault Refusal :=
  .next (complete s (dataResponse 0x12#6 ((s.stage.field f).setWidth 32)) [])

/-- RDPA (R108). -/
def execRdpa (f : ParamField) (s : State) : Host.Outcome State Fault Refusal :=
  .next (complete s (dataResponse 0x13#6 ((s.active.field f).setWidth 32)) [])

end Sys2Proof.Machine
end

