-- ==== Sys2Proof/Machine/Readback.lean ====
section
/-! DEFINITION. The readback family (`44_readback.md`). No command of it changes the state of the engine. -/

namespace Sys2Proof.Machine

/-- RDCH (R109). The gate stands in DATA bit 0 of the status view, not in the response's GATE field. -/
def execRdch (c : Channel) (view : ChannelView) (s : State) : Host.Outcome State Fault Refusal :=
  .next (complete s { op := 0x20#6, ch := channelBits c, data := (s.chan c).view view } [])

/-- RDCAL (R110). -/
def execRdcal (c : Channel) (i : EntryIndex) (s : State) : Host.Outcome State Fault Refusal :=
  .next (complete s { op := 0x21#6, ch := channelBits c, idx := entryBits i, data := (calRead s c i).setWidth 32 } [])

/-- RDNOTE (R111). -/
def execRdnote (i : EntryIndex) (s : State) : Host.Outcome State Fault Refusal :=
  .next (complete s { op := 0x22#6, ch := 0#2, idx := entryBits i, data := noteRead s i } [])

end Sys2Proof.Machine
end

