-- ==== Sys2Proof/Machine/Dispatch.lean ====
section
/-! DEFINITION. Which meaning each command of the opcode map has (`30_encoding.md` R58). -/

namespace Sys2Proof.Machine

def exec (i : Instr) (s : State) : Host.Outcome State Fault Refusal :=
  match i with
  | .mapq c v => Sys2Proof.Machine.execMapq c v s
  | .mapi c v => Sys2Proof.Machine.execMapi c v s
  | .envq c t => Sys2Proof.Machine.execEnvq c t s
  | .tick c v t => Sys2Proof.Machine.execTick c v t s
  | .setp f v => Sys2Proof.Machine.execSetp f v s
  | .apply => Sys2Proof.Machine.execApply s
  | .rdps f => Sys2Proof.Machine.execRdps f s
  | .rdpa f => Sys2Proof.Machine.execRdpa f s
  | .rdch c view => Sys2Proof.Machine.execRdch c view s
  | .rdcal c e => Sys2Proof.Machine.execRdcal c e s
  | .rdnote e => Sys2Proof.Machine.execRdnote e s

end Sys2Proof.Machine
end

