-- ==== Sys2Proof/Machine/Cycle.lean ====
section
/-! DEFINITION. The transaction of one command word and the rising edge of the clock that runs it (`20_memory.md` R48 to
R54). The block fetches nothing (`10_state.md` R31): the host offers a word, the block samples it, and the edge that
ends its latency runs it. -/

namespace Sys2Proof.Machine

/-- `Step(S, w)` of R54: the decode of R67, then the rule of the decoded command or the error response. The response
stands in `rspBuf` and the events in `events` of the state it answers. -/
def runCommand (w : CommandWord) (s : State) : Host.Outcome State Fault Refusal :=
  match decode w with
  | .ok i => exec i s
  | .error e => .next (raiseError s w e)

/-- An edge while a command is in flight: it is run when its latency has passed (R51). -/
def executingEdge (s : State) : Host.Outcome State Fault Refusal :=
  match s.wait with
  | 0 => runCommand s.command s
  | n + 1 => .next { s with wait := n }

/-- One rising edge of `clk`: reset first (R127); a ready block accepts (R49); a busy one runs its command (R51) and
then holds its response until it is taken (R52; DEDUCED, assumption logs 8 and 14). -/
def clockEdge (s : State) : Host.Outcome State Fault Refusal :=
  if s.pins.rst then .next (resetEdge (beginEdge s))
  else if s.busy then
    if s.rspValid then .next (respondingEdge s.pins (beginEdge s)) else executingEdge (beginEdge s)
  else .next (readyEdge s.pins (beginEdge s))

/-- The pins of the present cycle with `rst` low, the rest as the host has them. -/
def releaseReset : List HostInputs → List HostInputs
  | [] => []
  | p :: ps => { p with rst := false } :: ps

/-- The state in which the block has accepted word `w` and completes it at the next edge (R49, R51). -/
def withAccepted (s : State) (w : CommandWord) : State :=
  { s with busy := true, rspValid := false, command := w, wait := 0, inputs := releaseReset s.inputs }

end Sys2Proof.Machine
end

