-- ==== Sys2Proof/Machine/Step.lean ====
section
/-! DEFINITION. The step of the machine: one rising edge of `clk`. -/

namespace Sys2Proof.Machine

/-- One step is one rising edge of the clock (R10, R48). -/
def step (s : State) : Host.Outcome State Fault Refusal := clockEdge s

/-- `s` with the instruction whose low `nbits` bits are those of `w` accepted from the host and due at the next edge
(DESIGN CHOICE, assumption log 3). -/
def State.withFetchWord (s : State) (nbits w : Nat) : State :=
  withAccepted s (BitVec.ofNat 64 (w % 2 ^ nbits))

end Sys2Proof.Machine
end

