-- ==== Sys2Proof/Machine/Assembler.lean ====
section
/-! DEFINITION. The assembler syntax and the pseudo-instructions (`30_encoding.md` R68, R69): the written form of a
command, outside the block. The step never calls it. Where R68 leaves the text open the
choice is the model's (DESIGN CHOICE, assumption log 6). -/

namespace Sys2Proof.Machine

/-! ## Pseudo-instructions (R69) -/

/-- A pseudo-instruction; it has no encoding of its own. -/
inductive Pseudo where
  /-- `MAP cN, v, q` or `MAP cN, v, noq`. -/
  | map (c : Channel) (v : Voltage) (sm : SlideMode)
  /-- `LOADP ml, dc, sm, at, de, su, re`. -/
  | loadp (ml dc sm att de su re : Param)
  /-- `TICK3 v0, v1, v2, t`. -/
  | tick3 (v0 v1 v2 : Voltage) (t : Time)
  /-- `NOTEOFF cN, t`. -/
  | noteoff (c : Channel) (t : Time)
deriving DecidableEq, Repr

/-- The expansion of a pseudo-instruction (R69). -/
def expandPseudo : Pseudo → List Instr
  | .map c v .quantized => [.mapq c v]
  | .map c v .interpolated => [.mapi c v]
  | .loadp ml dc sm att de su re =>
    [.setp .ml ml, .setp .dc dc, .setp .sm sm, .setp .att att, .setp .de de, .setp .su su, .setp .re re, .apply]
  | .tick3 v0 v1 v2 t => [.tick 0 v0 t, .tick 1 v1 t, .tick 2 v2 t]
  | .noteoff c t => [.tick c 0#16 t]

/-! ## Text (R68) -/

/-- Why a line is refused. -/
inductive AsmError where
  /-- The line's first word is no mnemonic. -/
  | unknownMnemonic
  /-- The command has another number of operands. -/
  | operandCount
  /-- An operand is not of its form, or does not fit its field. -/
  | badOperand
deriving DecidableEq, Repr

/-- A blank between the parts of a line. -/
def isBlank (ch : Char) : Bool := ch == ' ' || ch == '\t'

/-- A text without the blanks around it. -/
def trimBlanks (cs : List Char) : List Char :=
  ((cs.dropWhile isBlank).reverse.dropWhile isBlank).reverse

/-- A text cut at every comma. -/
def splitCommas : List Char → List (List Char)
  | [] => [[]]
  | ch :: rest =>
    match splitCommas rest with
    | [] => [[ch]]
    | part :: parts => if ch == ',' then [] :: part :: parts else (ch :: part) :: parts

/-- The mnemonic of a line and its operands. -/
def lineParts (line : List Char) : List Char × List (List Char) :=
  let text := trimBlanks line
  let rest := trimBlanks (text.dropWhile fun ch => !isBlank ch)
  (text.takeWhile fun ch => !isBlank ch, if rest.isEmpty then [] else (splitCommas rest).map trimBlanks)

/-- The value of a decimal digit. -/
def decimalDigit (ch : Char) : Option Nat :=
  if 48 ≤ ch.toNat ∧ ch.toNat ≤ 57 then some (ch.toNat - 48) else none

/-- The value of a hexadecimal digit, in capital or small letters. -/
def hexDigit (ch : Char) : Option Nat :=
  if 48 ≤ ch.toNat ∧ ch.toNat ≤ 57 then some (ch.toNat - 48)
  else if 65 ≤ ch.toNat ∧ ch.toNat ≤ 70 then some (ch.toNat - 55)
  else if 97 ≤ ch.toNat ∧ ch.toNat ≤ 102 then some (ch.toNat - 87)
  else none

/-- The digits of a number in a base, most significant first, after the value `acc`. -/
def digitsValue (base : Nat) (digit : Char → Option Nat) : Nat → List Char → Option Nat
  | acc, [] => some acc
  | acc, ch :: rest =>
    match digit ch with
    | some d => digitsValue base digit (acc * base + d) rest
    | none => none

/-- A number: decimal, or hexadecimal with `0x`. -/
def parseNumber : List Char → Option Nat
  | '0' :: 'x' :: ch :: rest => digitsValue 16 hexDigit 0 (ch :: rest)
  | [] => none
  | cs => digitsValue 10 decimalDigit 0 cs

/-- A number operand that fits a field of `n` bits. -/
def numberOperand (n : Nat) (cs : List Char) : Except AsmError (BitVec n) :=
  match parseNumber cs with
  | some k => if k < 2 ^ n then .ok (BitVec.ofNat n k) else .error .badOperand
  | none => .error .badOperand

/-- The value a name stands for in a list of names. -/
def nameOperand {α : Type} (names : List (String × α)) (cs : List Char) : Except AsmError α :=
  match names.find? fun e => e.1.toList == cs with
  | some e => .ok e.2
  | none => .error .badOperand

/-- A channel operand, `c0`, `c1` or `c2`. -/
def asmChannel : List Char → Except AsmError Channel :=
  nameOperand [("c0", 0), ("c1", 1), ("c2", 2)]

/-- A parameter field by name. -/
def asmField : List Char → Except AsmError ParamField :=
  nameOperand [("ml", .ml), ("dc", .dc), ("sm", .sm), ("at", .att), ("de", .de), ("su", .su), ("re", .re)]

/-- A channel view by name. -/
def asmView : List Char → Except AsmError ChannelView :=
  nameOperand [("status", .status), ("on", .onTime), ("off", .offTime), ("freq", .freq), ("duty", .duty)]

/-- A slide-mode token. -/
def asmSlideMode : List Char → Except AsmError SlideMode :=
  nameOperand [("q", .quantized), ("noq", .interpolated)]

/-- A parameter value: a number, or a slide-mode token for the field `sm`. -/
def asmValue (f : ParamField) (cs : List Char) : Except AsmError Param :=
  match f with
  | .sm =>
    match asmSlideMode cs with
    | .ok sm => .ok (slideModeBits sm)
    | .error _ => numberOperand 16 cs
  | .ml | .dc | .att | .de | .su | .re => numberOperand 16 cs

/-- The seven values of LOADP in SEL order. -/
def asmLoadp (ml dc sm att de su re : List Char) : Except AsmError Pseudo := do
  let ml ← asmValue .ml ml
  let dc ← asmValue .dc dc
  let sm ← asmValue .sm sm
  let att ← asmValue .att att
  let de ← asmValue .de de
  let su ← asmValue .su su
  let re ← asmValue .re re
  return .loadp ml dc sm att de su re

/-- The words of a pseudo-instruction. -/
def pseudoWords (p : Pseudo) : List CommandWord := (expandPseudo p).map encode

/-- How one mnemonic reads its operands. A table entry number need only fit its field of five bits. -/
abbrev AsmForm := List (List Char) → Except AsmError (List CommandWord)

/-- `MNEMONIC cN, v`. -/
def formChannelVoltage (mk : Channel → Voltage → Instr) : AsmForm
  | [c, v] => do return [encode (mk (← asmChannel c) (← numberOperand 16 v))]
  | _ => .error .operandCount

/-- `ENVQ cN, t`. -/
def formEnvq : AsmForm
  | [c, t] => do return [encode (.envq (← asmChannel c) (← numberOperand 32 t))]
  | _ => .error .operandCount

/-- `TICK cN, v, t`. -/
def formTick : AsmForm
  | [c, v, t] => do return [encode (.tick (← asmChannel c) (← numberOperand 16 v) (← numberOperand 32 t))]
  | _ => .error .operandCount

/-- `SETP field, value`. -/
def formSetp : AsmForm
  | [f, v] => do
    let field ← asmField f
    return [encode (.setp field (← asmValue field v))]
  | _ => .error .operandCount

/-- `APPLY`. -/
def formApply : AsmForm
  | [] => .ok [encode .apply]
  | _ :: _ => .error .operandCount

/-- `MNEMONIC field`. -/
def formField (mk : ParamField → Instr) : AsmForm
  | [f] => do return [encode (mk (← asmField f))]
  | _ => .error .operandCount

/-- `RDCH cN, view`. -/
def formRdch : AsmForm
  | [c, view] => do return [encode (.rdch (← asmChannel c) (← asmView view))]
  | _ => .error .operandCount

/-- `RDCAL cN, i`. -/
def formRdcal : AsmForm
  | [c, i] => do
    return [packCommand (opcodeBits .rdcal) (channelBits (← asmChannel c)) 0#3 (← numberOperand 5 i) 0#16 0#32]
  | _ => .error .operandCount

/-- `RDNOTE i`. -/
def formRdnote : AsmForm
  | [i] => do return [packCommand (opcodeBits .rdnote) 0#2 0#3 (← numberOperand 5 i) 0#16 0#32]
  | _ => .error .operandCount

/-- `MAP cN, v, q` or `MAP cN, v, noq`. -/
def formMap : AsmForm
  | [c, v, m] => do return pseudoWords (.map (← asmChannel c) (← numberOperand 16 v) (← asmSlideMode m))
  | _ => .error .operandCount

/-- `LOADP ml, dc, sm, at, de, su, re`. -/
def formLoadp : AsmForm
  | [ml, dc, sm, att, de, su, re] => (asmLoadp ml dc sm att de su re).map pseudoWords
  | _ => .error .operandCount

/-- `TICK3 v0, v1, v2, t`. -/
def formTick3 : AsmForm
  | [v0, v1, v2, t] => do
    return pseudoWords
      (.tick3 (← numberOperand 16 v0) (← numberOperand 16 v1) (← numberOperand 16 v2) (← numberOperand 32 t))
  | _ => .error .operandCount

/-- `NOTEOFF cN, t`. -/
def formNoteoff : AsmForm
  | [c, t] => do return pseudoWords (.noteoff (← asmChannel c) (← numberOperand 32 t))
  | _ => .error .operandCount

/-- The mnemonics and their operand forms (R68, R69). -/
def asmForms : List (String × AsmForm) :=
  [("MAPQ", formChannelVoltage .mapq), ("MAPI", formChannelVoltage .mapi), ("ENVQ", formEnvq), ("TICK", formTick),
    ("SETP", formSetp), ("APPLY", formApply), ("RDPS", formField .rdps), ("RDPA", formField .rdpa),
    ("RDCH", formRdch), ("RDCAL", formRdcal), ("RDNOTE", formRdnote),
    ("MAP", formMap), ("LOADP", formLoadp), ("TICK3", formTick3), ("NOTEOFF", formNoteoff)]

/-- The command words of one line of assembly (R68, R69). -/
def assembleLine (line : String) : Except AsmError (List CommandWord) :=
  match asmForms.find? fun e => e.1.toList == (lineParts line.toList).1 with
  | some e => e.2 (lineParts line.toList).2
  | none => .error .unknownMnemonic

/-- The command words of a program, one command per line (R68). -/
def assembleLines : List String → Except AsmError (List CommandWord)
  | [] => .ok []
  | line :: rest => do return (← assembleLine line) ++ (← assembleLines rest)

end Sys2Proof.Machine
end

