-- ==== Sys2Proof/Machine/Patch.lean ====
section
/-! DEFINITION. The host's conversion of a patch into the block's units (`43_parameters.md` R103): a task of the host,
outside the block. The step never calls it. -/

namespace Sys2Proof.Machine

/-- A patch as the host stores it: levels and fractions as numbers, times in seconds (R103). -/
structure Patch where
  maxLevel : ℚ
  dutyCycle : ℚ
  slideMode : SlideMode
  attack : ℚ
  decay : ℚ
  sustain : ℚ
  release : ℚ
deriving DecidableEq, Repr

/-- `round(x * 1000)`, half up (the rounding R103 recommends; DESIGN CHOICE, assumption log 7), limited to 0 to 65535. -/
def patchParam (x : ℚ) : Param :=
  BitVec.ofNat 16 (min ((x * 1000 + 1 / 2).floor.toNat) 65535)

/-- The LOADP that loads a patch (R102, R103). -/
def patchLoad (p : Patch) : Pseudo :=
  .loadp (patchParam p.maxLevel) (patchParam p.dutyCycle) (slideModeBits p.slideMode) (patchParam p.attack)
    (patchParam p.decay) (patchParam p.sustain) (patchParam p.release)

end Sys2Proof.Machine
end

