-- ==== Sys2Proof/Machine/Ports.lean ====
section
/-! DEFINITION. The output ports of the block in the present cycle (`00_scope.md` R10), as functions of the state. While
`rst` is 1, `cmd_ready`, `rsp_valid` and every pulse are 0 (`70_reset_and_hazards.md` R127; DEDUCED, in that very cycle,
assumption log 8). The pulses are the events of the last edge (DEDUCED, assumption log 10). -/

namespace Sys2Proof.Machine

/-- `cmd_ready` is 1 exactly when `rst = 0` and `BUSY = 0` (R49). -/
def cmdReadyPort (s : State) : Bool := !s.pins.rst && !s.busy

/-- `rsp_valid` (R52, R127). -/
def rspValidPort (s : State) : Bool := !s.pins.rst && s.rspValid

/-- `rsp_data`: RSPBUF while a response is offered, any value else (R52). -/
def rspDataPort (s : State) : ResponseWord :=
  if rspValidPort s then s.rspBuf else Config.rspDataWhileInvalid s.edges

/-- `freq_out[c]` shows the register at all times (R21). -/
def freqOutPort (s : State) (c : Channel) : Frequency := (s.chan c).freqOut

/-- `duty_out[c]` shows the register at all times (R22). -/
def dutyOutPort (s : State) (c : Channel) : Amplitude := (s.chan c).dutyOut

/-- The event sets the frequency of channel c. -/
def isFreqSet (c : Channel) : OutputEvent → Bool
  | .freqSet c' _ => c' = c
  | .dutySet _ _ => false

/-- The event sets the duty of channel c. -/
def isDutySet (c : Channel) : OutputEvent → Bool
  | .freqSet _ _ => false
  | .dutySet c' _ => c' = c

/-- `freq_set[c]`: 1 in the cycle after the edge that set the frequency (R50). -/
def freqSetPort (s : State) (c : Channel) : Bool := !s.pins.rst && s.events.any (isFreqSet c)

/-- `duty_set[c]`: 1 in the cycle after the edge that set the duty (R50). -/
def dutySetPort (s : State) (c : Channel) : Bool := !s.pins.rst && s.events.any (isDutySet c)

end Sys2Proof.Machine
end

