-- ==== Sys2Proof/Safety.lean ====
section
/-! DEFINITION. The terms in which claims about runs are stated: what a well-formed state is (`10_state.md` R20, R26,
`20_memory.md` R50, R53, `30_encoding.md` R65, R66), when the next edge runs a command, and runs of the machine. -/

namespace Sys2Proof.Machine

/-- The part of the state R54 calls `S`, with the tables, is the same in two states. -/
def SameEngine (s t : State) : Prop :=
  t.channels = s.channels ∧ t.stage = s.stage ∧ t.active = s.active ∧ t.tables = s.tables

/-- What R20 says of one channel, with "since the first opening" read as FVALID = 1, and the values an unset
timestamp (R18, R19) and a channel never opened (R21, R22) hold (DEDUCED, assumption log 9). -/
def ChannelState.Sound (x : ChannelState) : Prop :=
  (x.onV && x.offV) = false ∧
  (x.gate = true → x.onV = true) ∧
  (x.fvalid = false → x.onV = false ∧ x.offV = false) ∧
  (x.fvalid = true → (x.onV ^^ x.offV) = true) ∧
  (x.fvalid = true → x.gate = false → x.offV = true) ∧
  (x.onV = false → x.onT = 0#32) ∧
  (x.offV = false → x.offT = 0#32) ∧
  (x.fvalid = false → x.freqOut = 0#32 ∧ x.dutyOut = 0#16)

/-- R26: each time field is at least `EPS_MS`. -/
def ParamSet.EngineReady (p : ParamSet) : Prop :=
  Config.epsMs ≤ p.attack.toNat ∧ Config.epsMs ≤ p.decay.toNat ∧ Config.epsMs ≤ p.release.toNat

/-- A response word answers a command word in the form of R65 and R66: OP and CH copied, the zero byte zero, a legal
phase code, at most one pitch flag, and nothing but the status beside an error. -/
def AnswersCommand (w : CommandWord) (r : ResponseWord) : Prop :=
  rspOp r = opField w ∧ rspCh r = chField w ∧ rspZero r = 0#8 ∧ (rspPhase r).toNat ≤ 4 ∧
  (rspBnd r && rspSat r) = false ∧ (rspBnd r && rspDeg r) = false ∧ (rspSat r && rspDeg r) = false ∧
  (rspSt r ≠ 0#2 → r.extractLsb' 0 54 = 0#54)

/-- The interface: a response is offered only while the block is busy (R29), it answers the sampled command, and a pulse
stands only in the cycle after a completion (R50). -/
def State.InterfaceSound (s : State) : Prop :=
  (s.rspValid = true → s.busy = true) ∧
  (s.rspValid = true → AnswersCommand s.command s.rspBuf) ∧
  (s.events ≠ [] → s.rspValid = true)

/-- The invariant of the block. -/
def State.Sound (s : State) : Prop :=
  (∀ c, (s.chan c).Sound) ∧ s.active.EngineReady ∧ s.InterfaceSound

/-- The next edge completes the accepted command: no reset, and its latency has passed (R51). -/
def State.Completing (s : State) : Prop :=
  s.pins.rst = false ∧ s.busy = true ∧ s.rspValid = false ∧ s.wait = 0

/-- `idx` is the smallest index whose distance to `v` is least (R72), said without a scan. -/
def IsNearest (cal : CalTable) (v : Voltage) (idx : EntryIndex) : Prop :=
  (∀ j, calDistance cal v idx ≤ calDistance cal v j) ∧ ∀ j, j < idx → calDistance cal v idx < calDistance cal v j

/-- The word `w` holds the fields `r`, each at its place in the response word, and a zero byte in bits 39:32 (R65). -/
def HasFields (w : ResponseWord) (r : Response) : Prop :=
  rspOp w = r.op ∧ rspCh w = r.ch ∧ rspSt w = statusCode r.st ∧ rspPhase w = phaseCode r.phase ∧
  rspDeg w = r.flags.deg ∧ rspSat w = r.flags.sat ∧ rspBnd w = r.flags.bnd ∧
  rspFall w = r.fall ∧ rspRise w = r.rise ∧ rspGate w = r.gate ∧
  rspIdx w = r.idx ∧ rspZero w = 0#8 ∧ rspDataField w = r.data

/-- Nothing but the response changes: no engine state, no event, nothing of the interface beside RSPBUF and
`rsp_valid` (R43, R48). -/
def RepliesOnly (s t : State) : Prop :=
  t = { s with rspBuf := t.rspBuf, rspValid := true, events := [] }

/-- What a completing command never touches: the tables, `BUSY`, the sampled word and its wait, and what stands outside
the block (R27, R28, R48). -/
def InterfaceFrame (s t : State) : Prop :=
  t.tables = s.tables ∧ t.busy = s.busy ∧ t.command = s.command ∧ t.wait = s.wait ∧
  t.inputs = s.inputs ∧ t.latencies = s.latencies ∧ t.edges = s.edges ∧ t.rspValid = true

/-- The channel a command names, if it uses CH (R58). -/
def namedChannel : Instr → Option Channel
  | .mapq c _ | .mapi c _ | .envq c _ | .tick c _ _ | .rdch c _ | .rdcal c _ => some c
  | .setp _ _ | .apply | .rdps _ | .rdpa _ | .rdnote _ => none

/-- `(t - T0) mod 2^32` on numbers (R82). -/
def elapsedMs (t t0 : Time) : Nat := (t.toNat + 2 ^ 32 - t0.toNat) % 2 ^ 32

/-- The states of a run, one edge after the other; a run of this block never stops (R54). -/
def runEdges : Nat → State → State
  | 0, s => s
  | n + 1, s =>
    match step s with
    | .next t => runEdges n t
    | .fault _ => s
    | .refused _ => s

/-- The commands of a program run one after the other, each as the transaction of R54. -/
def runWords : List CommandWord → State → State
  | [], s => s
  | w :: ws, s =>
    match runCommand w s with
    | .next t => runWords ws t
    | .fault _ => s
    | .refused _ => s

/-- A run is safe when every state of it is sound. -/
def SafeRun (s : State) : Prop := ∀ n, (runEdges n s).Sound

end Sys2Proof.Machine
end

