-- ==== Sys2Proof/Certificates/Slice0/Obligations.lean ====
section
/-! DEFINITION. The statements for the provers. Each docstring names the rules it formalises. -/

open Sys2Proof Sys2Proof.Machine

/-! ## Encoding and decoding -/

/-- R58, R67: the encoding of every well-formed command decodes to that command, with every operand at every value. -/
def Obligations.DecodeOfEncode : Prop :=
  ∀ i : Instr, i.WellFormed → decode (encode i) = .ok i

/-- R58: a word that decodes is the one encoding of the command it decodes to. -/
def Obligations.DecodableWordIsTheOneEncoding : Prop :=
  ∀ (w : CommandWord) (i : Instr), decode w = .ok i → i.WellFormed ∧ encode i = w

/-- Words the spec writes out decode to the commands the spec gives them: one of each command, and one for each of the
seven parameter fields and the five channel views of R57 (R104, R106 to R111; `95_test_vectors.md` V1, V4, V5 and P2). -/
def Obligations.SpecWordsDecode : Prop :=
  decode 0x040015E000000000#64 = .ok (.mapq 0 5600) ∧ decode 0x09001D4C00000000#64 = .ok (.mapi 1 7500) ∧
  decode 0x1000000000000190#64 = .ok (.envq 0 400) ∧ decode 0x200015E0000003E8#64 = .ok (.tick 0 5600 1000) ∧
  decode 0x4060000000000000#64 = .ok (.setp .att 0) ∧ decode 0x4400000000000000#64 = .ok .apply ∧
  decode 0x4880000000000000#64 = .ok (.rdps .de) ∧ decode 0x4C60000000000000#64 = .ok (.rdpa .att) ∧
  decode 0x8000000000000000#64 = .ok (.rdch 0 .status) ∧ decode 0x8405000000000000#64 = .ok (.rdcal 0 5) ∧
  decode 0x8805000000000000#64 = .ok (.rdnote 5) ∧
  decode 0x4800000000000000#64 = .ok (.rdps .ml) ∧ decode 0x4820000000000000#64 = .ok (.rdps .dc) ∧
  decode 0x4840000000000000#64 = .ok (.rdps .sm) ∧ decode 0x4860000000000000#64 = .ok (.rdps .att) ∧
  decode 0x48A0000000000000#64 = .ok (.rdps .su) ∧ decode 0x48C0000000000000#64 = .ok (.rdps .re) ∧
  decode 0x4CA0000000000000#64 = .ok (.rdpa .su) ∧ decode 0x40A0FFFF00000000#64 = .ok (.setp .su 65535) ∧
  decode 0x8020000000000000#64 = .ok (.rdch 0 .onTime) ∧ decode 0x8040000000000000#64 = .ok (.rdch 0 .offTime) ∧
  decode 0x8060000000000000#64 = .ok (.rdch 0 .freq) ∧ decode 0x8080000000000000#64 = .ok (.rdch 0 .duty) ∧
  decode 0x8510000000000000#64 = .ok (.rdcal 1 16) ∧ decode 0x8617000000000000#64 = .ok (.rdcal 2 23) ∧
  decode 0x8800000000000000#64 = .ok (.rdnote 0) ∧ decode 0x8817000000000000#64 = .ok (.rdnote 23)

/-- R62: a word is ILLEGAL, status 1, exactly when one of the causes (a) to (e) holds, (b) spelled out from the
field-use table of R58. -/
def Obligations.IllegalExactlyByTheFiveCauses : Prop :=
  statusCode (statusOfError .illegal) = 1#2 ∧ ∀ w : CommandWord, decode w = .error .illegal ↔
    (opField w ∉ [0x01#6, 0x02#6, 0x04#6, 0x08#6, 0x10#6, 0x11#6, 0x12#6, 0x13#6, 0x20#6, 0x21#6, 0x22#6]) ∨
    (opField w ∈ [0x01#6, 0x02#6] ∧ (selField w ≠ 0 ∨ idxField w ≠ 0 ∨ tField w ≠ 0)) ∨
    (opField w = 0x04#6 ∧ (selField w ≠ 0 ∨ idxField w ≠ 0 ∨ vField w ≠ 0)) ∨
    (opField w = 0x08#6 ∧ (selField w ≠ 0 ∨ idxField w ≠ 0)) ∨
    (opField w = 0x10#6 ∧ (chField w ≠ 0 ∨ idxField w ≠ 0 ∨ tField w ≠ 0)) ∨
    (opField w = 0x11#6 ∧ (chField w ≠ 0 ∨ selField w ≠ 0 ∨ idxField w ≠ 0 ∨ vField w ≠ 0 ∨ tField w ≠ 0)) ∨
    (opField w ∈ [0x12#6, 0x13#6] ∧ (chField w ≠ 0 ∨ idxField w ≠ 0 ∨ vField w ≠ 0 ∨ tField w ≠ 0)) ∨
    (opField w = 0x20#6 ∧ (idxField w ≠ 0 ∨ vField w ≠ 0 ∨ tField w ≠ 0)) ∨
    (opField w = 0x21#6 ∧ (selField w ≠ 0 ∨ vField w ≠ 0 ∨ tField w ≠ 0)) ∨
    (opField w = 0x22#6 ∧ (chField w ≠ 0 ∨ selField w ≠ 0 ∨ vField w ≠ 0 ∨ tField w ≠ 0)) ∨
    (opField w ∈ [0x10#6, 0x12#6, 0x13#6] ∧ selField w = 7) ∨
    (opField w = 0x20#6 ∧ 5 ≤ (selField w).toNat) ∨
    (opField w = 0x10#6 ∧ selField w = 2 ∧ 1 < (vField w).toNat)

/-- R63 with the order of R119: a word that is not ILLEGAL is BAD_CH, status 2, or BAD_IDX, status 3, exactly when its
channel or its entry is out of range, the channel first. -/
def Obligations.OutOfRangeExactly : Prop :=
  statusCode (statusOfError .badCh) = 2#2 ∧ statusCode (statusOfError .badIdx) = 3#2 ∧ ∀ w : CommandWord,
    (decode w = .error .badCh ↔ decode w ≠ .error .illegal ∧
      opField w ∈ [0x01#6, 0x02#6, 0x04#6, 0x08#6, 0x20#6, 0x21#6] ∧ chField w = 3) ∧
    (decode w = .error .badIdx ↔ decode w ≠ .error .illegal ∧ decode w ≠ .error .badCh ∧
      opField w ∈ [0x21#6, 0x22#6] ∧ 24 ≤ (idxField w).toNat)

/-- R65: every field of a response stands at its place in the response word, bits 39:32 are 0, and the status and the
phase are the numbers of the table. -/
def Obligations.ResponseWordHoldsItsFields : Prop :=
  ∀ r : Response, HasFields r.word r ∧
    (r.st = .ok → rspSt r.word = 0#2) ∧ (r.st = .illegal → rspSt r.word = 1#2) ∧
    (r.st = .badCh → rspSt r.word = 2#2) ∧ (r.st = .badIdx → rspSt r.word = 3#2) ∧
    (r.phase = .idle → rspPhase r.word = 0#3) ∧ (r.phase = .attack → rspPhase r.word = 1#3) ∧
    (r.phase = .decay → rspPhase r.word = 2#3) ∧ (r.phase = .sustain → rspPhase r.word = 3#3) ∧
    (r.phase = .release → rspPhase r.word = 4#3)

/-- R40: the bridge carries byte k of a word at bits 8k+7 to 8k, the low half first, and the word comes back from
exactly its eight bytes. -/
def Obligations.BridgeCarriesTheWord : Prop :=
  (∀ w : CommandWord, wordOfBytes (bytesOfWord w) = some w) ∧
  ∀ (bs : List Byte) (w : CommandWord), wordOfBytes bs = some w →
    bs.length = 8 ∧ ∀ k, k < 8 → bs[k]? = some (w.extractLsb' (8 * k) 8)

/-! ## The step -/

/-- R54, R67: when the edge completes a word that decodes to a command, the step is that command's meaning on the state
in which this cycle's pins are past and the last pulses have ended. -/
def Obligations.StepRunsTheDecodedCommand : Prop :=
  ∀ (s : State) (i : Instr), s.Completing → decode s.command = .ok i →
    step s = exec i { s with inputs := s.inputs.tail, events := [], edges := s.edges + 1 }

/-- An encoded command placed for execution is the command the very next step runs. Placing it stands for the host's offer
and the block's acceptance, which is the model's choice (assumption log 3). -/
def Obligations.PlacedCommandRuns : Prop :=
  ∀ (s : State) (i : Instr), i.WellFormed →
    (s.withFetchWord 64 (encode i).toNat).Completing ∧
    step (s.withFetchWord 64 (encode i).toNat) = exec i (beginEdge (withAccepted s (encode i)))

/-- R54, R112: `Step` is total and the block has no traps: every edge from every state gives a next state. -/
def Obligations.EveryEdgeGivesANextState : Prop :=
  ∀ s : State, ∃ t, step s = .next t

/-- R66, R117: an erroneous word changes nothing of the engine, emits nothing, and is answered by OP, CH and its status
with every other field 0. -/
def Obligations.ErroneousCommandHasNoEffect : Prop :=
  ∀ (s : State) (e : DecodeError), s.Completing → decode s.command = .error e →
    ∃ t, step s = .next t ∧ SameEngine s t ∧ t.events = [] ∧ t.rspValid = true ∧ t.busy = true ∧
      (∀ c, freqSetPort t c = false ∧ dutySetPort t c = false) ∧
      rspOp t.rspBuf = opField s.command ∧ rspCh t.rspBuf = chField s.command ∧
      (e = .illegal → rspSt t.rspBuf = 1#2) ∧ (e = .badCh → rspSt t.rspBuf = 2#2) ∧
      (e = .badIdx → rspSt t.rspBuf = 3#2) ∧ t.rspBuf.extractLsb' 0 54 = 0#54

/-! ## Reset -/

/-- R17 to R22, R24, R128: after reset every channel is closed, without timestamps and silent, STAGE is the default patch,
ACTIVE its derivation with attack 1, and the block is ready and offers no response. -/
def Obligations.ResetLeavesTheDefaultPatch : Prop :=
  (∀ c, (State.reset.chan c) =
    { gate := false, onV := false, onT := 0#32, offV := false, offT := 0#32, freqOut := 0#32, fvalid := false,
      dutyOut := 0#16 }) ∧
  State.reset.stage =
    { maxLevel := 300#16, dutyCycle := 300#16, slideMode := .quantized, attack := 0#16, decay := 400#16,
      sustain := 200#16, release := 400#16 } ∧
  State.reset.active = derive State.reset.stage ∧ State.reset.active.attack = 1#16 ∧
  State.reset.busy = false ∧ rspValidPort State.reset = false ∧ cmdReadyPort State.reset = true ∧
  ∀ c, freqOutPort State.reset c = 0#32 ∧ dutyOutPort State.reset c = 0#16

/-- R127, R129: an edge with `rst = 1` loads every reset value whatever the block was doing, discards an outstanding
command or response, keeps the tables and marks nothing by a pulse; while `rst` is 1 the handshake outputs and the pulses
are 0. -/
def Obligations.ResetEdgeResetsFromAnyState : Prop :=
  ∀ s : State, s.pins.rst = true →
    (cmdReadyPort s = false ∧ rspValidPort s = false ∧ ∀ c, freqSetPort s c = false ∧ dutySetPort s c = false) ∧
    ∃ t, step s = .next t ∧
      (∀ c, t.chan c =
        { gate := false, onV := false, onT := 0#32, offV := false, offT := 0#32, freqOut := 0#32, fvalid := false,
          dutyOut := 0#16 }) ∧
      t.stage =
        { maxLevel := 300#16, dutyCycle := 300#16, slideMode := .quantized, attack := 0#16, decay := 400#16,
          sustain := 200#16, release := 400#16 } ∧
      t.active =
        { maxLevel := 300#16, dutyCycle := 300#16, slideMode := .quantized, attack := 1#16, decay := 400#16,
          sustain := 200#16, release := 400#16 } ∧
      t.busy = false ∧ t.rspValid = false ∧ t.tables = s.tables ∧
      (∀ c, freqOutPort t c = 0#32 ∧ dutyOutPort t c = 0#16) ∧
      ∀ c, freqSetPort t c = false ∧ dutySetPort t c = false

/-! ## The handshake -/

/-- R49: `cmd_ready` is 1 exactly when `rst = 0` and `BUSY = 0`; at such an edge an offered word is sampled and `BUSY`
set, with the engine unchanged; at every other edge `cmd_data` has no effect. -/
def Obligations.AcceptanceSamplesTheWord : Prop :=
  ∀ (s : State) (p : HostInputs) (ps : List HostInputs), s.inputs = p :: ps →
    (cmdReadyPort s = true ↔ p.rst = false ∧ s.busy = false) ∧
    (p.cmdValid = true → cmdReadyPort s = true →
      ∃ t, step s = .next t ∧ t.busy = true ∧ t.command = p.cmdData ∧ SameEngine s t ∧ t.events = [] ∧
        t.rspValid = s.rspValid ∧ t.rspBuf = s.rspBuf) ∧
    (¬(p.cmdValid = true ∧ cmdReadyPort s = true) →
      ∀ w, step { s with inputs := { p with cmdData := w } :: ps } = step s)

/-- R52: an offered response stays as it is until the host takes it; then the block is ready again. -/
def Obligations.ResponseIsHeldUntilTaken : Prop :=
  ∀ s : State, s.pins.rst = false → s.busy = true → s.rspValid = true →
    rspDataPort s = s.rspBuf ∧
    ∃ t, step s = .next t ∧ SameEngine s t ∧ t.rspBuf = s.rspBuf ∧
      t.rspValid = !s.pins.rspReady ∧ t.busy = !s.pins.rspReady ∧
      (s.pins.rspReady = true → t.pins.rst = false → cmdReadyPort t = true)

/-- R53: a host that never takes a response stalls the block: whatever it offers, the block accepts nothing more and
the output ports keep their values. -/
def Obligations.UntakenResponseStallsTheBlock : Prop :=
  ∀ (n : Nat) (s : State), s.busy = true → s.rspValid = true →
    (∀ p ∈ s.inputs, p.rst = false ∧ p.rspReady = false) →
    SameEngine s (runEdges n s) ∧ (runEdges n s).command = s.command ∧ (runEdges n s).rspBuf = s.rspBuf ∧
      (runEdges n s).latencies = s.latencies ∧ cmdReadyPort (runEdges n s) = false ∧
      rspValidPort (runEdges n s) = true ∧
      ∀ c, freqOutPort (runEdges n s) c = freqOutPort s c ∧ dutyOutPort (runEdges n s) c = dutyOutPort s c

/-- R126: when no command arrives, the block holds its state and its outputs indefinitely. -/
def Obligations.IdleBlockHoldsItsState : Prop :=
  ∀ (n : Nat) (s : State), s.busy = false → (∀ p ∈ s.inputs, p.rst = false ∧ p.cmdValid = false) →
    SameEngine s (runEdges n s) ∧ (runEdges n s).busy = false ∧
      ∀ c, freqOutPort (runEdges n s) c = freqOutPort s c ∧ dutyOutPort (runEdges n s) c = dutyOutPort s c

/-- R48, R51, R54: an accepted word completes exactly `LAT` edges after its acceptance, with `LAT - 1` the head of the
state's list of latencies, or 1 edge where the list has ended (the model's form of the OPEN `LAT`, assumption log 2); until
then the engine does not
change and no response is offered; at that edge its whole effect, its response and its events are those of `Step`
applied to the word in the state it was accepted in. -/
def Obligations.AcceptedCommandCompletesAfterItsLatency : Prop :=
  ∀ (s : State) (p : HostInputs) (ps : List HostInputs), s.inputs = p :: ps →
    p.rst = false → p.cmdValid = true → s.busy = false → s.rspValid = false →
    (∀ q ∈ ps.take (s.latencies.headD 0 + 1), q.rst = false) →
    (∀ j, 1 ≤ j → j ≤ s.latencies.headD 0 + 1 →
      SameEngine s (runEdges j s) ∧ (runEdges j s).busy = true ∧ (runEdges j s).rspValid = false) ∧
    ∃ u, runCommand p.cmdData s = .next u ∧
      SameEngine u (runEdges (s.latencies.headD 0 + 2) s) ∧
      (runEdges (s.latencies.headD 0 + 2) s).rspBuf = u.rspBuf ∧
      (runEdges (s.latencies.headD 0 + 2) s).events = u.events ∧
      (runEdges (s.latencies.headD 0 + 2) s).rspValid = true ∧
      (runEdges (s.latencies.headD 0 + 2) s).busy = true

/-- R50: only the completion of a TICK leaves events, and in a sound state they last one cycle. -/
def Obligations.OnlyTickPulsesAndForOneCycle : Prop :=
  ∀ s t : State, step s = .next t →
    (t.events ≠ [] → s.Completing ∧ ∃ c v tm, decode s.command = .ok (.tick c v tm)) ∧
    (s.Sound → s.events ≠ [] → t.events = [])

/-! ## The pitch mapper -/

/-- R72: the nearest index is the smallest index of least distance. -/
def Obligations.NearestIndexIsTheLowestOfLeastDistance : Prop :=
  ∀ (cal : CalTable) (v : Voltage),
    IsNearest cal v (nearestIndex cal v) ∧ ∀ i, IsNearest cal v i → i = nearestIndex cal v

/-- The spec's own inference in R73: a repeated entry is reached at its lowest index, and a voltage on an entry gives the
lowest such entry. -/
def Obligations.NearestIndexMeetsARepeatedEntryFirst : Prop :=
  ∀ (cal : CalTable) (v : Voltage),
    (∀ j, j ≠ nearestIndex cal v → cal[j] = cal[nearestIndex cal v] → nearestIndex cal v < j) ∧
    ∀ i : EntryIndex, v = cal[i] →
      cal[nearestIndex cal v] = v ∧ ∀ j : EntryIndex, cal[j] = v → nearestIndex cal v ≤ j

/-- R72, R74, R79: MAPQ answers the nearest entry's note and index with no flag, and changes nothing else. -/
def Obligations.MapqAnswersTheNearestNote : Prop :=
  ∀ (c : Channel) (v : Voltage) (s : State), ∃ (idx : EntryIndex) (t : State),
    IsNearest (s.calTable c) v idx ∧ exec (.mapq c v) s = .next t ∧ RepliesOnly s t ∧
    HasFields t.rspBuf { op := 0x01#6, ch := channelBits c, idx := entryBits idx, data := noteRead s idx }

/-- R75 to R77, R80: MAPI answers the boundary note with BND at the first and the last entry; else it interpolates toward
the neighbour on `v`'s side by voltage: DEG with the entry's own note on a zero-width segment, else the exact value rounded
once toward zero and saturated with SAT. Nothing else changes. -/
def Obligations.MapiInterpolatesTowardTheNeighbour : Prop :=
  ∀ (c : Channel) (v : Voltage) (s : State), ∃ (idx : EntryIndex) (t : State),
    IsNearest (s.calTable c) v idx ∧ exec (.mapi c v) s = .next t ∧ RepliesOnly s t ∧
    (idx = 0 ∨ idx = 23 →
      HasFields t.rspBuf
        { op := 0x02#6, ch := channelBits c, idx := entryBits idx, data := noteRead s idx,
          flags := { bnd := true, sat := false, deg := false } }) ∧
    (idx ≠ 0 → idx ≠ 23 → ∀ (nb : EntryIndex) (den num r : Int),
      ((calRead s c idx).toNat < v.toNat → nb.val = idx.val + 1) →
      (v.toNat ≤ (calRead s c idx).toNat → nb.val + 1 = idx.val) →
      den = (calRead s c nb).toNat - (calRead s c idx).toNat →
      num = ((v.toNat : Int) - (calRead s c idx).toNat) * ((noteRead s nb).toNat - (noteRead s idx).toNat) →
      r = (noteRead s idx).toNat + Int.sign (num * den) * (num.natAbs / den.natAbs : Nat) →
      (den = 0 →
        HasFields t.rspBuf
          { op := 0x02#6, ch := channelBits c, idx := entryBits idx, data := noteRead s idx,
            flags := { bnd := false, sat := false, deg := true } }) ∧
      (den ≠ 0 → r < 0 →
        HasFields t.rspBuf
          { op := 0x02#6, ch := channelBits c, idx := entryBits idx, data := 0#32,
            flags := { bnd := false, sat := true, deg := false } }) ∧
      (den ≠ 0 → 2 ^ 32 - 1 < r →
        HasFields t.rspBuf
          { op := 0x02#6, ch := channelBits c, idx := entryBits idx, data := 0xFFFFFFFF#32,
            flags := { bnd := false, sat := true, deg := false } }) ∧
      (den ≠ 0 → 0 ≤ r → r ≤ 2 ^ 32 - 1 →
        HasFields t.rspBuf
          { op := 0x02#6, ch := channelBits c, idx := entryBits idx, data := BitVec.ofNat 32 r.toNat,
            flags := { bnd := false, sat := false, deg := false } }))

/-- R78 (a), (b): on its nearest entry's voltage MapI gives that entry's note exactly, and DEG occurs only above a repeated
entry. -/
def Obligations.MapiIsExactOnABreakpoint : Prop :=
  ∀ (cal : CalTable) (note : NoteTable) (v : Voltage),
    (cal[nearestIndex cal v] = v → (mapI cal note v).freq = note[nearestIndex cal v]) ∧
    ((mapI cal note v).flags.deg = true → cal[nearestIndex cal v].toNat < v.toNat ∧
      ∃ j : EntryIndex, j.val = (nearestIndex cal v).val + 1 ∧ cal[j] = cal[nearestIndex cal v])

/-- R78 (c): when the neighbour's voltage lies on `v`'s side of the nearest entry, the interpolated note lies between the
entry's note and the midpoint of the segment, and nothing saturates. -/
def Obligations.MapiStaysWithinHalfASegment : Prop :=
  ∀ (cal : CalTable) (note : NoteTable) (v : Voltage) (idx nb : EntryIndex),
    idx = nearestIndex cal v → idx ≠ 0 → idx ≠ 23 → nb = neighbour cal v idx →
    (cal[idx].toNat < v.toNat → cal[idx].toNat < cal[nb].toNat) →
    (v.toNat ≤ cal[idx].toNat → cal[nb].toNat < cal[idx].toNat) →
    (mapI cal note v).flags = { bnd := false, sat := false, deg := false } ∧
    0 ≤ (((mapI cal note v).freq.toNat : Int) - note[idx].toNat) * ((note[nb].toNat : Int) - note[idx].toNat) ∧
    2 * (((mapI cal note v).freq.toNat : Int) - note[idx].toNat).natAbs ≤
      ((note[nb].toNat : Int) - note[idx].toNat).natAbs

/-! ## The envelope -/

/-- R82 to R89, R91: ENVQ answers the phase and the amplitude of the channel at time `t` under ACTIVE, the phase by
its number in R65, and changes nothing else. -/
def Obligations.EnvqAnswersPhaseAndAmplitude : Prop :=
  ∀ (c : Channel) (t : Time) (s : State), ∃ s', exec (.envq c t) s = .next s' ∧ RepliesOnly s s' ∧
    ∀ (ml at_ de su re e : Nat), ml = s.active.maxLevel.toNat → at_ = s.active.attack.toNat →
      de = s.active.decay.toNat → su = s.active.sustain.toNat → re = s.active.release.toNat →
    ((s.chan c).onV = true → e = elapsedMs t (s.chan c).onT →
      (e < at_ → rspPhase s'.rspBuf = 1#3 ∧ HasFields s'.rspBuf
        { op := 0x04#6, ch := channelBits c, phase := .attack,
          data := BitVec.ofNat 32 (min (e * ml * 65535 / (at_ * 1000)) 65535) }) ∧
      (at_ ≤ e → e < at_ + de → rspPhase s'.rspBuf = 2#3 ∧ HasFields s'.rspBuf
        { op := 0x04#6, ch := channelBits c, phase := .decay,
          data := BitVec.ofNat 32
            (min ((ml * (de - (e - at_)) + su * (e - at_)) * 65535 / (de * 1000)) 65535) }) ∧
      (at_ + de ≤ e → rspPhase s'.rspBuf = 3#3 ∧ HasFields s'.rspBuf
        { op := 0x04#6, ch := channelBits c, phase := .sustain,
          data := BitVec.ofNat 32 (min (su * 65535 / 1000) 65535) })) ∧
    ((s.chan c).onV = false → (s.chan c).offV = true → e = elapsedMs t (s.chan c).offT →
      (e < re → rspPhase s'.rspBuf = 4#3 ∧ HasFields s'.rspBuf
        { op := 0x04#6, ch := channelBits c, phase := .release,
          data := BitVec.ofNat 32 (min (su * 65535 * (re - e) / (re * 1000)) 65535) }) ∧
      (re ≤ e → rspPhase s'.rspBuf = 0#3 ∧
        HasFields s'.rspBuf { op := 0x04#6, ch := channelBits c, phase := .idle, data := 0#32 })) ∧
    ((s.chan c).onV = false → (s.chan c).offV = false → rspPhase s'.rspBuf = 0#3 ∧
      HasFields s'.rspBuf { op := 0x04#6, ch := channelBits c, phase := .idle, data := 0#32 })

/-- R90 (a), the four joins: the ATTACK formula, which holds before `e = AT`, and DECAY at `d = 0` both give the level of ML
at `e = AT`; the DECAY formula, which holds before `d = DE`, gives at `d = DE` the value SUSTAIN takes there, the level of
SU; RELEASE begins at that level exactly; and from `e = RE` on the level is 0. -/
def Obligations.EnvelopeJoinsAtPhaseBoundaries : Prop :=
  ∀ p : ParamSet, p.EngineReady →
    (∀ e, e < p.attack.toNat → noteOnLevel p e = (attackRaw p e, .attack)) ∧
    attackRaw p p.attack.toNat = p.maxLevel.toNat * 65535 / 1000 ∧
    noteOnLevel p p.attack.toNat = (p.maxLevel.toNat * 65535 / 1000, .decay) ∧
    (∀ d, d < p.decay.toNat → noteOnLevel p (p.attack.toNat + d) = (decayRaw p d, .decay)) ∧
    decayRaw p p.decay.toNat = p.sustain.toNat * 65535 / 1000 ∧
    noteOnLevel p (p.attack.toNat + p.decay.toNat) = (p.sustain.toNat * 65535 / 1000, .sustain) ∧
    noteOffLevel p 0 = (p.sustain.toNat * 65535 / 1000, .release) ∧
    ∀ e, p.release.toNat ≤ e → noteOffLevel p e = (0, .idle)

/-- R84, R87: ATTACK never falls and RELEASE never rises as time passes within the phase. -/
def Obligations.AttackRisesAndReleaseFalls : Prop :=
  ∀ (p : ParamSet) (e e' : Nat), e ≤ e' →
    (e' < p.attack.toNat → (noteOnLevel p e).1 ≤ (noteOnLevel p e').1) ∧
    (noteOffLevel p e').1 ≤ (noteOffLevel p e).1

/-- R89: the amplitude clamp acts only when ML or SU exceeds 1000. -/
def Obligations.AmplitudeIsClampedOnlyAboveNominal : Prop :=
  ∀ (x : ChannelState) (t : Time) (p : ParamSet), p.maxLevel.toNat ≤ 1000 → p.sustain.toNat ≤ 1000 →
    (rawLevel x t p).1 ≤ 65535 ∧ (envLevel x t p).amp.toNat = (rawLevel x t p).1

/-! ## TICK -/

/-- R94: a TICK below the threshold on an open gate closes it: the note-off time is set, the note-on time cleared, FALL
reported. -/
def Obligations.TickClosesAnOpenGate : Prop :=
  ∀ (c : Channel) (v : Voltage) (t : Time) (s : State), (s.chan c).gate = true → v.toNat < 983 →
    ∃ s', exec (.tick c v t) s = .next s' ∧ (s'.chan c).gate = false ∧
      (s'.chan c).offV = true ∧ (s'.chan c).offT = t ∧ (s'.chan c).onV = false ∧ (s'.chan c).onT = 0#32 ∧
      rspFall s'.rspBuf = true ∧ rspRise s'.rspBuf = false ∧ rspGate s'.rspBuf = false

/-- R95: a TICK at or above the threshold on a closed gate opens it: the note-on time is set, the note-off time cleared,
RISE reported. -/
def Obligations.TickOpensAClosedGate : Prop :=
  ∀ (c : Channel) (v : Voltage) (t : Time) (s : State), (s.chan c).gate = false → 983 ≤ v.toNat →
    ∃ s', exec (.tick c v t) s = .next s' ∧ (s'.chan c).gate = true ∧
      (s'.chan c).onV = true ∧ (s'.chan c).onT = t ∧ (s'.chan c).offV = false ∧ (s'.chan c).offT = 0#32 ∧
      rspRise s'.rspBuf = true ∧ rspFall s'.rspBuf = false ∧ rspGate s'.rspBuf = true

/-- R96: a TICK that meets the gate at its level keeps the gate and both timestamps and reports no edge. -/
def Obligations.TickWithoutAnEdgeKeepsTheTimestamps : Prop :=
  ∀ (c : Channel) (v : Voltage) (t : Time) (s : State), ((s.chan c).gate = true ↔ 983 ≤ v.toNat) →
    ∃ s', exec (.tick c v t) s = .next s' ∧ (s'.chan c).gate = (s.chan c).gate ∧
      (s'.chan c).onV = (s.chan c).onV ∧ (s'.chan c).onT = (s.chan c).onT ∧
      (s'.chan c).offV = (s.chan c).offV ∧ (s'.chan c).offT = (s.chan c).offT ∧
      rspRise s'.rspBuf = false ∧ rspFall s'.rspBuf = false ∧ rspGate s'.rspBuf = (s.chan c).gate

/-- R98, R100: with the gate open a TICK sets FREQ_OUT to the pitch of `v` in the ACTIVE slide mode, the nearest note or
what MAPI answers, sets FVALID, shows the frequency on `freq_out` with the pulse `freq_set`, and emits `freq_set` before
`duty_set`, with the index and flags of the map in the response; with it closed it keeps both registers and `freq_out`,
emits and pulses no `freq_set` and reports index and flags 0. -/
def Obligations.TickDrivesTheFrequency : Prop :=
  ∀ (c : Channel) (v : Voltage) (t : Time) (s : State), ∃ s', exec (.tick c v t) s = .next s' ∧
    (983 ≤ v.toNat →
      ∃ m : PitchResult,
        (s.active.slideMode = .quantized →
          IsNearest (s.calTable c) v m.idx ∧ m.freq = noteRead s m.idx ∧
          m.flags = { bnd := false, sat := false, deg := false }) ∧
        (s.active.slideMode = .interpolated →
          ∃ q, exec (.mapi c v) s = .next q ∧ rspDataField q.rspBuf = m.freq ∧ rspIdx q.rspBuf = entryBits m.idx ∧
            rspBnd q.rspBuf = m.flags.bnd ∧ rspSat q.rspBuf = m.flags.sat ∧ rspDeg q.rspBuf = m.flags.deg) ∧
        (s'.chan c).freqOut = m.freq ∧ (s'.chan c).fvalid = true ∧ freqOutPort s' c = m.freq ∧
        (s'.pins.rst = false → freqSetPort s' c = true) ∧
        s'.events = [.freqSet c m.freq, .dutySet c (s'.chan c).dutyOut] ∧
        rspIdx s'.rspBuf = entryBits m.idx ∧ rspBnd s'.rspBuf = m.flags.bnd ∧ rspSat s'.rspBuf = m.flags.sat ∧
        rspDeg s'.rspBuf = m.flags.deg) ∧
    (v.toNat < 983 →
      (s'.chan c).freqOut = (s.chan c).freqOut ∧ (s'.chan c).fvalid = (s.chan c).fvalid ∧
      freqOutPort s' c = (s.chan c).freqOut ∧ freqSetPort s' c = false ∧
      s'.events = [.dutySet c (s'.chan c).dutyOut] ∧
      rspIdx s'.rspBuf = 0#5 ∧ rspBnd s'.rspBuf = false ∧ rspSat s'.rspBuf = false ∧ rspDeg s'.rspBuf = false)

/-- R99, R100: every TICK computes the envelope on the timestamps its own gate update left, the phase and amplitude that
ENVQ then answers, and the duty `min(amp * DC / 1000, 65535)` from it; it writes DUTY_OUT, shows it on `duty_out` with the
pulse `duty_set`, emits `duty_set` last and answers amplitude and duty. -/
def Obligations.TickDrivesTheDuty : Prop :=
  ∀ (c : Channel) (v : Voltage) (t : Time) (s : State), ∃ (s' : State) (amp : Nat) (ph : EnvPhase),
    exec (.tick c v t) s = .next s' ∧
    amp = min (rawLevel (s'.chan c) t s.active).1 65535 ∧ ph = (rawLevel (s'.chan c) t s.active).2 ∧
    (s'.chan c).dutyOut.toNat = min (amp * s.active.dutyCycle.toNat / 1000) 65535 ∧
    dutyOutPort s' c = (s'.chan c).dutyOut ∧ (s'.pins.rst = false → dutySetPort s' c = true) ∧
    s'.events.getLast? = some (.dutySet c (s'.chan c).dutyOut) ∧
    (∃ q, exec (.envq c t) s' = .next q ∧ rspPhase q.rspBuf = rspPhase s'.rspBuf ∧
      (rspDataField q.rspBuf).toNat = amp) ∧
    rspPhase s'.rspBuf = phaseCode ph ∧
    (rspDataField s'.rspBuf).toNat = amp * 65536 + (s'.chan c).dutyOut.toNat ∧
    rspOp s'.rspBuf = 0x08#6 ∧ rspCh s'.rspBuf = channelBits c ∧ rspSt s'.rspBuf = 0#2 ∧ rspZero s'.rspBuf = 0#8

/-- R100: a TICK changes no other channel and no parameter, and of the interface only the response and the events. -/
def Obligations.TickFrame : Prop :=
  ∀ (c : Channel) (v : Voltage) (t : Time) (s : State), ∃ s', exec (.tick c v t) s = .next s' ∧
    (∀ d, d ≠ c → s'.chan d = s.chan d) ∧ s'.stage = s.stage ∧ s'.active = s.active ∧ InterfaceFrame s s'

/-- R101 (a): the source's scenario with the default patch, whatever the tables hold: a gate that opens at 0 gives
amplitude 0, closing at 400 gives 13107 with duty 3932, and at 800 both are 0. -/
def Obligations.TickPlaysTheDefaultScenario : Prop :=
  ∀ tables : Tables,
    ∃ s1 s2 s3, exec (.tick 0 5600 0) { State.reset with tables := tables } = .next s1 ∧
      exec (.tick 0 0 400) s1 = .next s2 ∧ exec (.tick 0 0 800) s2 = .next s3 ∧
      rspDataField s1.rspBuf = 0#32 ∧ rspPhase s1.rspBuf = 1#3 ∧
      rspDataField s2.rspBuf = 0x33330F5C#32 ∧ rspPhase s2.rspBuf = 4#3 ∧ (s2.chan 0).dutyOut = 3932#16 ∧
      rspDataField s3.rspBuf = 0#32 ∧ rspPhase s3.rspBuf = 0#3 ∧ (s3.chan 0).dutyOut = 0#16

/-- R101 (c): TICKs of different channels commute, but for the order of their responses and events. -/
def Obligations.TicksOfDifferentChannelsCommute : Prop :=
  ∀ (c d : Channel) (v w : Voltage) (t u : Time) (s : State), c ≠ d →
    ∃ s1 s2 s3 s4, exec (.tick c v t) s = .next s1 ∧ exec (.tick d w u) s1 = .next s2 ∧
      exec (.tick d w u) s = .next s3 ∧ exec (.tick c v t) s3 = .next s4 ∧
      SameEngine s2 s4 ∧ s1.rspBuf = s4.rspBuf ∧ s1.events = s4.events ∧ s2.rspBuf = s3.rspBuf ∧
      s2.events = s3.events

/-- R69: NOTEOFF closes the gate of its channel, because the threshold is at least 1. -/
def Obligations.NoteoffClosesTheGate : Prop :=
  ∀ (c : Channel) (t : Time) (s : State),
    ((runWords (pseudoWords (.noteoff c t)) s).chan c).gate = false ∧
    ((s.chan c).gate = true → ((runWords (pseudoWords (.noteoff c t)) s).chan c).offT = t)

/-! ## Parameters -/

/-- R104: SETP writes the one STAGE field it names (of the slide mode, bit 0), answers DATA 0 and changes nothing else. -/
def Obligations.SetpWritesOneStageField : Prop :=
  ∀ (f : ParamField) (v : Param) (s : State), ∃ t, exec (.setp f v) s = .next t ∧
    t.stage.field f = (if f = .sm then v &&& 1#16 else v) ∧ (∀ g, g ≠ f → t.stage.field g = s.stage.field g) ∧
    t.channels = s.channels ∧ t.active = s.active ∧ t.events = [] ∧ InterfaceFrame s t ∧
    HasFields t.rspBuf { op := 0x10#6, ch := 0#2, data := 0#32 }

/-- R105, R106: APPLY replaces ACTIVE whole by STAGE with each time field at least 1, answers DATA 0 and changes nothing
else. -/
def Obligations.ApplyReplacesActiveByTheDerivedStage : Prop :=
  ∀ s : State, ∃ t, exec .apply s = .next t ∧
    t.active.maxLevel = s.stage.maxLevel ∧ t.active.dutyCycle = s.stage.dutyCycle ∧
    t.active.slideMode = s.stage.slideMode ∧ t.active.sustain = s.stage.sustain ∧
    t.active.attack.toNat = max s.stage.attack.toNat 1 ∧ t.active.decay.toNat = max s.stage.decay.toNat 1 ∧
    t.active.release.toNat = max s.stage.release.toNat 1 ∧
    t.channels = s.channels ∧ t.stage = s.stage ∧ t.events = [] ∧ InterfaceFrame s t ∧
    HasFields t.rspBuf { op := 0x11#6, ch := 0#2, data := 0#32 }

/-- R43: SETP and APPLY are idempotent on the engine. -/
def Obligations.SetpAndApplyAreIdempotent : Prop :=
  ∀ (i : Instr) (s t u : State), (i = .apply ∨ ∃ f v, i = .setp f v) →
    exec i s = .next t → exec i t = .next u → SameEngine t u ∧ u.rspBuf = t.rspBuf

/-- R69, R102: after LOADP, from any state, STAGE holds the patch, ACTIVE its derivation, and the channels are as
before. -/
def Obligations.LoadpLoadsThePatch : Prop :=
  ∀ (ml dc sm att de su re : Param) (s : State), sm.toNat ≤ 1 →
    (runWords (pseudoWords (.loadp ml dc sm att de su re)) s).channels = s.channels ∧
    (runWords (pseudoWords (.loadp ml dc sm att de su re)) s).stage =
      { maxLevel := ml, dutyCycle := dc, slideMode := (if sm = 1#16 then .interpolated else .quantized),
        attack := att, decay := de, sustain := su, release := re } ∧
    (runWords (pseudoWords (.loadp ml dc sm att de su re)) s).active =
      derive (runWords (pseudoWords (.loadp ml dc sm att de su re)) s).stage

/-- R107, R108: RDPS and RDPA answer the field they name, zero-extended, the slide mode as 0 or 1, and change nothing
else. -/
def Obligations.ParameterReadsAnswerTheField : Prop :=
  ∀ (f : ParamField) (s : State),
    (∃ t, exec (.rdps f) s = .next t ∧ RepliesOnly s t ∧
      HasFields t.rspBuf { op := 0x12#6, ch := 0#2, data := (s.stage.field f).setWidth 32 }) ∧
    (∃ t, exec (.rdpa f) s = .next t ∧ RepliesOnly s t ∧
      HasFields t.rspBuf { op := 0x13#6, ch := 0#2, data := (s.active.field f).setWidth 32 }) ∧
    (s.active.EngineReady → f ∈ [ParamField.att, .de, .re] →
      ∃ t, exec (.rdpa f) s = .next t ∧ rspDataField t.rspBuf ≠ 0#32)

/-! ## Readback -/

/-- R109: RDCH answers the view it names, the four status bits in DATA bits 3:0 among them, and changes nothing else. -/
def Obligations.RdchAnswersTheView : Prop :=
  ∀ (c : Channel) (view : ChannelView) (s : State), ∃ t d, exec (.rdch c view) s = .next t ∧ RepliesOnly s t ∧
    HasFields t.rspBuf { op := 0x20#6, ch := channelBits c, data := d } ∧
    (view = .status →
      d.toNat = (s.chan c).gate.toNat + 2 * (s.chan c).onV.toNat + 4 * (s.chan c).offV.toNat +
        8 * (s.chan c).fvalid.toNat) ∧
    (view = .onTime → d = (s.chan c).onT) ∧ (view = .offTime → d = (s.chan c).offT) ∧
    (view = .freq → d = (s.chan c).freqOut) ∧ (view = .duty → d.toNat = (s.chan c).dutyOut.toNat)

/-- R110, R111: RDCAL and RDNOTE answer the entry and its index and change nothing else. -/
def Obligations.TableReadsAnswerTheEntry : Prop :=
  ∀ (c : Channel) (i : EntryIndex) (s : State),
    (∃ t, exec (.rdcal c i) s = .next t ∧ RepliesOnly s t ∧
      HasFields t.rspBuf
        { op := 0x21#6, ch := channelBits c, idx := entryBits i, data := (calRead s c i).setWidth 32 }) ∧
    ∃ t, exec (.rdnote i) s = .next t ∧ RepliesOnly s t ∧
      HasFields t.rspBuf { op := 0x22#6, ch := 0#2, idx := entryBits i, data := noteRead s i }

/-! ## Whole-machine rules -/

/-- R23: a command that names channel c reads and writes, of the channels, only c; it writes no parameter and no table;
its response and its effect on c depend on c, the tables and ACTIVE alone. No command writes two channels. -/
def Obligations.CommandTouchesOnlyItsChannel : Prop :=
  (∀ (i : Instr) (c : Channel) (s s' : State), namedChannel i = some c →
    s'.chan c = s.chan c → s'.tables = s.tables → s'.active = s.active →
    ∃ t t', exec i s = .next t ∧ exec i s' = .next t' ∧
      (∀ d, d ≠ c → t.chan d = s.chan d) ∧ t.stage = s.stage ∧ t.active = s.active ∧ t.tables = s.tables ∧
      t'.chan c = t.chan c ∧ t'.rspBuf = t.rspBuf ∧ t'.events = t.events) ∧
  ∀ (i : Instr) (s : State), namedChannel i = none → ∃ t, exec i s = .next t ∧ t.channels = s.channels

/-- R51, R54: what a command does to the engine, its response and its events depend on the engine alone, not on the
interface, the latency or the host's pins. -/
def Obligations.CommandsDependOnTheEngineAlone : Prop :=
  ∀ (w : CommandWord) (s s' : State), SameEngine s s' →
    ∃ t t', runCommand w s = .next t ∧ runCommand w s' = .next t' ∧ SameEngine t t' ∧
      t'.rspBuf = t.rspBuf ∧ t'.events = t.events

/-- Every edge keeps the block sound: the timestamps, the gate and FVALID of each channel fit together, ACTIVE stays
engine-ready, and an offered response answers the sampled word. R20 and R26 are the spec's own inferences; "since the first
opening" as FVALID = 1 and the zero outputs of a channel never opened are the model's (assumption log 9). -/
def Obligations.EveryEdgeKeepsTheBlockSound : Prop :=
  ∀ s t : State, s.Sound → step s = .next t → t.Sound

/-- R17 to R29: each piece of state is written by its own command only: a channel by its TICK, STAGE by SETP, ACTIVE by
APPLY, each at the completion edge, and all of them by reset; the tables by nothing. -/
def Obligations.StateChangesOnlyByItsOwnCommand : Prop :=
  ∀ (s t : State) (c : Channel), step s = .next t →
    t.tables = s.tables ∧
    (t.chan c ≠ s.chan c → s.pins.rst = true ∨ s.Completing ∧ ∃ v tm, decode s.command = .ok (.tick c v tm)) ∧
    (t.stage ≠ s.stage → s.pins.rst = true ∨ s.Completing ∧ ∃ f v, decode s.command = .ok (.setp f v)) ∧
    (t.active ≠ s.active → s.pins.rst = true ∨ s.Completing ∧ decode s.command = .ok .apply)

/-- The state after reset is sound. -/
def Obligations.ResetIsSound : Prop := State.reset.Sound

/-! ## The output ports -/

/-- R10, R21, R22, R50, R100: in the cycle after the edge that completes a TICK, `freq_out` and `duty_out` of every channel
show its registers. `duty_out` of the ticked channel is the duty of the response, computed from the response's
amplitude; its `freq_out` is what MAPQ or MAPI answers for `v`, by the slide mode, when the gate is open, and as before when
it is closed; the other channels show what they showed. With `rst` low in that cycle exactly the ticked channel's
`duty_set` is 1, and its `freq_set` exactly when the gate is open; in the cycle after that, whatever its pins, every pulse is
0. -/
def Obligations.TickShowsOnTheOutputPorts : Prop :=
  ∀ (s : State) (c : Channel) (v : Voltage) (tm : Time), s.Completing → decode s.command = .ok (.tick c v tm) →
    ∃ t, step s = .next t ∧
      (∀ d, freqOutPort t d = (t.chan d).freqOut ∧ dutyOutPort t d = (t.chan d).dutyOut) ∧
      (dutyOutPort t c).toNat = (rspDataField t.rspBuf).toNat % 65536 ∧
      (dutyOutPort t c).toNat =
        min ((rspDataField t.rspBuf).toNat / 65536 * s.active.dutyCycle.toNat / 1000) 65535 ∧
      (983 ≤ v.toNat →
        ∃ q, exec (if s.active.slideMode = .quantized then .mapq c v else .mapi c v) s = .next q ∧
          freqOutPort t c = rspDataField q.rspBuf) ∧
      (v.toNat < 983 → freqOutPort t c = freqOutPort s c) ∧
      (∀ d, d ≠ c → freqOutPort t d = freqOutPort s d ∧ dutyOutPort t d = dutyOutPort s d) ∧
      (t.pins.rst = false →
        ∀ d, (dutySetPort t d = true ↔ d = c) ∧ (freqSetPort t d = true ↔ d = c ∧ 983 ≤ v.toNat)) ∧
      ∀ u, step t = .next u → ∀ d, dutySetPort u d = false ∧ freqSetPort u d = false
end

