-- ==== Sys2Proof/Laws/Decode.lean ====
section
/-! SUPPORT. What the field extractions, the operand codes and the encoder do, so that proofs about decoding cite these
and do not unfold bit extractions. -/

namespace Sys2Proof.Laws

/-! ## Fields of a packed word -/

section Fields

variable (op : BitVec 6) (ch : BitVec 2) (sel : BitVec 3) (idx : BitVec 5) (v : BitVec 16) (t : BitVec 32)

/-- Each bit of a packed word lies in one field. -/
theorem packCommand_getLsbD (i : Nat) :
    (packCommand op ch sel idx v t).getLsbD i =
      if i < 32 then t.getLsbD i else if i < 48 then v.getLsbD (i - 32) else if i < 53 then idx.getLsbD (i - 48)
      else if i < 56 then sel.getLsbD (i - 53) else if i < 58 then ch.getLsbD (i - 56)
      else op.getLsbD (i - 58) := by
  change BitVec.getLsbD (w := 6 + 2 + 3 + 5 + 16 + 32) (op ++ ch ++ sel ++ idx ++ v ++ t) i = _
  simp only [BitVec.getLsbD_append, Nat.sub_sub]
  grind

@[simp] theorem opField_packCommand : opField (packCommand op ch sel idx v t) = op := by
  ext i hi
  simp only [opField, BitVec.getElem_extractLsb', packCommand_getLsbD]
  grind

@[simp] theorem chField_packCommand : chField (packCommand op ch sel idx v t) = ch := by
  ext i hi
  simp only [chField, BitVec.getElem_extractLsb', packCommand_getLsbD]
  grind

@[simp] theorem selField_packCommand : selField (packCommand op ch sel idx v t) = sel := by
  ext i hi
  simp only [selField, BitVec.getElem_extractLsb', packCommand_getLsbD]
  grind

@[simp] theorem idxField_packCommand : idxField (packCommand op ch sel idx v t) = idx := by
  ext i hi
  simp only [idxField, BitVec.getElem_extractLsb', packCommand_getLsbD]
  grind

@[simp] theorem vField_packCommand : vField (packCommand op ch sel idx v t) = v := by
  ext i hi
  simp only [vField, BitVec.getElem_extractLsb', packCommand_getLsbD]
  grind

@[simp] theorem tField_packCommand : tField (packCommand op ch sel idx v t) = t := by
  ext i hi
  simp only [tField, BitVec.getElem_extractLsb', packCommand_getLsbD]
  grind

end Fields

/-- A word is made of its six fields. -/
theorem packCommand_fields (w : CommandWord) :
    packCommand (opField w) (chField w) (selField w) (idxField w) (vField w) (tField w) = w := by
  ext i hi
  rw [← BitVec.getLsbD_eq_getElem, packCommand_getLsbD]
  simp only [opField, chField, selField, idxField, vField, tField, BitVec.getLsbD_extractLsb']
  grind

/-- Masking works field by field. -/
theorem packCommand_and (op op' : BitVec 6) (ch ch' : BitVec 2) (sel sel' : BitVec 3) (idx idx' : BitVec 5)
    (v v' : BitVec 16) (t t' : BitVec 32) :
    packCommand op ch sel idx v t &&& packCommand op' ch' sel' idx' v' t' =
      packCommand (op &&& op') (ch &&& ch') (sel &&& sel') (idx &&& idx') (v &&& v') (t &&& t') := by
  ext i hi
  simp only [← BitVec.getLsbD_eq_getElem, packCommand_getLsbD, BitVec.getLsbD_and]
  grind

/-- A packed word is zero exactly when each field is. -/
theorem packCommand_eq_zero (op : BitVec 6) (ch : BitVec 2) (sel : BitVec 3) (idx : BitVec 5) (v : BitVec 16)
    (t : BitVec 32) :
    packCommand op ch sel idx v t = 0#64 ↔
      op = 0#6 ∧ ch = 0#2 ∧ sel = 0#3 ∧ idx = 0#5 ∧ v = 0#16 ∧ t = 0#32 := by
  constructor
  · intro h
    refine ⟨?_, ?_, ?_, ?_, ?_, ?_⟩
    · exact (opField_packCommand op ch sel idx v t).symm.trans ((congrArg opField h).trans (by decide))
    · exact (chField_packCommand op ch sel idx v t).symm.trans ((congrArg chField h).trans (by decide))
    · exact (selField_packCommand op ch sel idx v t).symm.trans ((congrArg selField h).trans (by decide))
    · exact (idxField_packCommand op ch sel idx v t).symm.trans ((congrArg idxField h).trans (by decide))
    · exact (vField_packCommand op ch sel idx v t).symm.trans ((congrArg vField h).trans (by decide))
    · exact (tField_packCommand op ch sel idx v t).symm.trans ((congrArg tField h).trans (by decide))
  · rintro ⟨rfl, rfl, rfl, rfl, rfl, rfl⟩
    decide

/-! ## Codes of opcodes and operands -/

@[simp] theorem opcodeOfBits_bits (o : Opcode) : opcodeOfBits (opcodeBits o) = some o := by
  cases o <;> decide

/-- An OP value names the command whose code it is. -/
theorem opcodeBits_of_eq_some {op : BitVec 6} {o : Opcode} (h : opcodeOfBits op = some o) : opcodeBits o = op := by
  have := List.find?_some h
  simpa using this

@[simp] theorem channelOfBits_bits (c : Channel) : channelOfBits (channelBits c) = some c := by
  fin_cases c <;> rfl

@[simp] theorem entryOfBits_bits (i : EntryIndex) : entryOfBits (entryBits i) = some i := by
  fin_cases i <;> rfl

@[simp] theorem paramFieldOfBits_bits (f : ParamField) : paramFieldOfBits (paramFieldBits f) = some f := by
  cases f <;> rfl

@[simp] theorem channelViewOfBits_bits (v : ChannelView) : channelViewOfBits (channelViewBits v) = some v := by
  cases v <;> rfl

/-- CH names the channel of its number, and 3 names none. -/
theorem channelOfBits_cases (ch : BitVec 2) :
    (∃ c, channelOfBits ch = some c ∧ channelBits c = ch) ∨ (channelOfBits ch = none ∧ ch = 3#2) := by
  revert ch
  decide

/-- IDX names the entry of its number, and 24 to 31 name none. -/
theorem entryOfBits_cases (idx : BitVec 5) :
    (∃ i, entryOfBits idx = some i ∧ entryBits i = idx) ∨ (entryOfBits idx = none ∧ 24 ≤ idx.toNat) := by
  unfold entryOfBits
  split
  · exact .inl ⟨_, rfl, by simp [entryBits]⟩
  · exact .inr ⟨rfl, by omega⟩

/-- SEL names the field of its number, and 7 names none. -/
theorem paramFieldOfBits_cases (sel : BitVec 3) :
    (∃ f, paramFieldOfBits sel = some f ∧ paramFieldBits f = sel) ∨ (paramFieldOfBits sel = none ∧ sel = 7#3) := by
  have h : ∀ n : Fin 8, (∃ f, paramFieldOfBits (BitVec.ofFin n) = some f ∧ paramFieldBits f = BitVec.ofFin n) ∨
      (paramFieldOfBits (BitVec.ofFin n) = none ∧ BitVec.ofFin n = 7#3) := by
    intro n
    fin_cases n
    exacts [.inl ⟨.ml, rfl, rfl⟩, .inl ⟨.dc, rfl, rfl⟩, .inl ⟨.sm, rfl, rfl⟩, .inl ⟨.att, rfl, rfl⟩,
      .inl ⟨.de, rfl, rfl⟩, .inl ⟨.su, rfl, rfl⟩, .inl ⟨.re, rfl, rfl⟩, .inr ⟨rfl, rfl⟩]
  exact h sel.toFin

/-- SEL names the view of its number, and 5 to 7 name none. -/
theorem channelViewOfBits_cases (sel : BitVec 3) :
    (∃ v, channelViewOfBits sel = some v ∧ channelViewBits v = sel) ∨
      (channelViewOfBits sel = none ∧ 5 ≤ sel.toNat) := by
  have h : ∀ n : Fin 8, (∃ v, channelViewOfBits (BitVec.ofFin n) = some v ∧ channelViewBits v = BitVec.ofFin n) ∨
      (channelViewOfBits (BitVec.ofFin n) = none ∧ 5 ≤ (BitVec.ofFin n : BitVec 3).toNat) := by
    intro n
    fin_cases n
    exacts [.inl ⟨.status, rfl, rfl⟩, .inl ⟨.onTime, rfl, rfl⟩, .inl ⟨.offTime, rfl, rfl⟩, .inl ⟨.freq, rfl, rfl⟩,
      .inl ⟨.duty, rfl, rfl⟩, .inr ⟨rfl, by decide⟩, .inr ⟨rfl, by decide⟩, .inr ⟨rfl, by decide⟩]
  exact h sel.toFin

end Sys2Proof.Laws
end

