-- ==== Sys2Proof/Laws/Response.lean ====
section
/-! SUPPORT. Where the bits of a response word come from (`30_encoding.md` R65). -/

namespace Sys2Proof.Laws

open Sys2Proof.Machine

/-- Two Boolean choices agree when their tests and their branches do. -/
theorem ite_bool_congr (P Q : Prop) [Decidable P] [Decidable Q] (a a' b b' : Bool) (h : P ↔ Q) (ha : P → a = a')
    (hb : ¬P → b = b') : (if P then a else b) = if Q then a' else b' := by
  by_cases hp : P
  · rw [if_pos hp, if_pos (h.1 hp), ha hp]
  · rw [if_neg hp, if_neg (fun hq => hp (h.2 hq)), hb hp]

/-- Each bit of a response word lies in one field. -/
theorem word_getLsbD (r : Response) (i : Nat) :
    r.word.getLsbD i =
      if i < 32 then r.data.getLsbD i else if i < 40 then false else if i < 45 then r.idx.getLsbD (i - 40)
      else if i = 45 then r.gate else if i = 46 then r.rise else if i = 47 then r.fall
      else if i = 48 then r.flags.bnd else if i = 49 then r.flags.sat else if i = 50 then r.flags.deg
      else if i < 54 then (phaseCode r.phase).getLsbD (i - 51)
      else if i < 56 then (statusCode r.st).getLsbD (i - 54)
      else if i < 58 then r.ch.getLsbD (i - 56) else r.op.getLsbD (i - 58) := by
  change BitVec.getLsbD (w := 6 + 2 + 2 + 3 + 1 + 1 + 1 + 1 + 1 + 1 + 5 + 8 + 32)
    (r.op ++ r.ch ++ statusCode r.st ++ phaseCode r.phase ++ BitVec.ofBool r.flags.deg ++ BitVec.ofBool r.flags.sat ++
      BitVec.ofBool r.flags.bnd ++ BitVec.ofBool r.fall ++ BitVec.ofBool r.rise ++ BitVec.ofBool r.gate ++ r.idx ++
      0#8 ++ r.data) i = _
  simp only [BitVec.getLsbD_append, BitVec.getLsbD_ofBool, BitVec.getLsbD_zero, Nat.sub_sub]
  iterate 12
    refine ite_bool_congr _ _ _ _ _ _ (by omega) (fun h => by first | rfl | (simp; intro _; omega)) fun _ => ?_
  rfl

end Sys2Proof.Laws
end

