-- ==== Sys2Proof/Laws/State.lean ====
section
/-! SUPPORT. One lemma per field of the state per named update, true by unfolding, so that no later proof unfolds a
record update. -/

namespace Sys2Proof.Laws

open Sys2Proof.Machine

/-! ## setChan -/

@[simp] theorem setChan_channels (s : State) (c : Channel) (x : ChannelState) : (s.setChan c x).channels = s.channels.set c x := rfl
@[simp] theorem setChan_stage (s : State) (c : Channel) (x : ChannelState) : (s.setChan c x).stage = s.stage := rfl
@[simp] theorem setChan_active (s : State) (c : Channel) (x : ChannelState) : (s.setChan c x).active = s.active := rfl
@[simp] theorem setChan_tables (s : State) (c : Channel) (x : ChannelState) : (s.setChan c x).tables = s.tables := rfl
@[simp] theorem setChan_busy (s : State) (c : Channel) (x : ChannelState) : (s.setChan c x).busy = s.busy := rfl
@[simp] theorem setChan_rspBuf (s : State) (c : Channel) (x : ChannelState) : (s.setChan c x).rspBuf = s.rspBuf := rfl
@[simp] theorem setChan_rspValid (s : State) (c : Channel) (x : ChannelState) : (s.setChan c x).rspValid = s.rspValid := rfl
@[simp] theorem setChan_command (s : State) (c : Channel) (x : ChannelState) : (s.setChan c x).command = s.command := rfl
@[simp] theorem setChan_wait (s : State) (c : Channel) (x : ChannelState) : (s.setChan c x).wait = s.wait := rfl
@[simp] theorem setChan_events (s : State) (c : Channel) (x : ChannelState) : (s.setChan c x).events = s.events := rfl
@[simp] theorem setChan_inputs (s : State) (c : Channel) (x : ChannelState) : (s.setChan c x).inputs = s.inputs := rfl
@[simp] theorem setChan_latencies (s : State) (c : Channel) (x : ChannelState) : (s.setChan c x).latencies = s.latencies := rfl
@[simp] theorem setChan_edges (s : State) (c : Channel) (x : ChannelState) : (s.setChan c x).edges = s.edges := rfl

/-! ## complete -/

@[simp] theorem complete_channels (s : State) (r : Response) (evs : List OutputEvent) : (complete s r evs).channels = s.channels := rfl
@[simp] theorem complete_stage (s : State) (r : Response) (evs : List OutputEvent) : (complete s r evs).stage = s.stage := rfl
@[simp] theorem complete_active (s : State) (r : Response) (evs : List OutputEvent) : (complete s r evs).active = s.active := rfl
@[simp] theorem complete_tables (s : State) (r : Response) (evs : List OutputEvent) : (complete s r evs).tables = s.tables := rfl
@[simp] theorem complete_busy (s : State) (r : Response) (evs : List OutputEvent) : (complete s r evs).busy = s.busy := rfl
@[simp] theorem complete_rspBuf (s : State) (r : Response) (evs : List OutputEvent) : (complete s r evs).rspBuf = r.word := rfl
@[simp] theorem complete_rspValid (s : State) (r : Response) (evs : List OutputEvent) : (complete s r evs).rspValid = true := rfl
@[simp] theorem complete_command (s : State) (r : Response) (evs : List OutputEvent) : (complete s r evs).command = s.command := rfl
@[simp] theorem complete_wait (s : State) (r : Response) (evs : List OutputEvent) : (complete s r evs).wait = s.wait := rfl
@[simp] theorem complete_events (s : State) (r : Response) (evs : List OutputEvent) : (complete s r evs).events = evs := rfl
@[simp] theorem complete_inputs (s : State) (r : Response) (evs : List OutputEvent) : (complete s r evs).inputs = s.inputs := rfl
@[simp] theorem complete_latencies (s : State) (r : Response) (evs : List OutputEvent) : (complete s r evs).latencies = s.latencies := rfl
@[simp] theorem complete_edges (s : State) (r : Response) (evs : List OutputEvent) : (complete s r evs).edges = s.edges := rfl

/-! ## raiseError -/

@[simp] theorem raiseError_channels (s : State) (w : CommandWord) (e : DecodeError) : (raiseError s w e).channels = s.channels := rfl
@[simp] theorem raiseError_stage (s : State) (w : CommandWord) (e : DecodeError) : (raiseError s w e).stage = s.stage := rfl
@[simp] theorem raiseError_active (s : State) (w : CommandWord) (e : DecodeError) : (raiseError s w e).active = s.active := rfl
@[simp] theorem raiseError_tables (s : State) (w : CommandWord) (e : DecodeError) : (raiseError s w e).tables = s.tables := rfl
@[simp] theorem raiseError_busy (s : State) (w : CommandWord) (e : DecodeError) : (raiseError s w e).busy = s.busy := rfl
@[simp] theorem raiseError_rspBuf (s : State) (w : CommandWord) (e : DecodeError) : (raiseError s w e).rspBuf = (errorResponse w e).word := rfl
@[simp] theorem raiseError_rspValid (s : State) (w : CommandWord) (e : DecodeError) : (raiseError s w e).rspValid = true := rfl
@[simp] theorem raiseError_command (s : State) (w : CommandWord) (e : DecodeError) : (raiseError s w e).command = s.command := rfl
@[simp] theorem raiseError_wait (s : State) (w : CommandWord) (e : DecodeError) : (raiseError s w e).wait = s.wait := rfl
@[simp] theorem raiseError_events (s : State) (w : CommandWord) (e : DecodeError) : (raiseError s w e).events = [] := rfl
@[simp] theorem raiseError_inputs (s : State) (w : CommandWord) (e : DecodeError) : (raiseError s w e).inputs = s.inputs := rfl
@[simp] theorem raiseError_latencies (s : State) (w : CommandWord) (e : DecodeError) : (raiseError s w e).latencies = s.latencies := rfl
@[simp] theorem raiseError_edges (s : State) (w : CommandWord) (e : DecodeError) : (raiseError s w e).edges = s.edges := rfl

/-! ## beginEdge -/

@[simp] theorem beginEdge_channels (s : State) : (beginEdge s).channels = s.channels := rfl
@[simp] theorem beginEdge_stage (s : State) : (beginEdge s).stage = s.stage := rfl
@[simp] theorem beginEdge_active (s : State) : (beginEdge s).active = s.active := rfl
@[simp] theorem beginEdge_tables (s : State) : (beginEdge s).tables = s.tables := rfl
@[simp] theorem beginEdge_busy (s : State) : (beginEdge s).busy = s.busy := rfl
@[simp] theorem beginEdge_rspBuf (s : State) : (beginEdge s).rspBuf = s.rspBuf := rfl
@[simp] theorem beginEdge_rspValid (s : State) : (beginEdge s).rspValid = s.rspValid := rfl
@[simp] theorem beginEdge_command (s : State) : (beginEdge s).command = s.command := rfl
@[simp] theorem beginEdge_wait (s : State) : (beginEdge s).wait = s.wait := rfl
@[simp] theorem beginEdge_events (s : State) : (beginEdge s).events = [] := rfl
@[simp] theorem beginEdge_inputs (s : State) : (beginEdge s).inputs = s.inputs.tail := rfl
@[simp] theorem beginEdge_latencies (s : State) : (beginEdge s).latencies = s.latencies := rfl
@[simp] theorem beginEdge_edges (s : State) : (beginEdge s).edges = s.edges + 1 := rfl

/-! ## resetEdge -/

@[simp] theorem resetEdge_channels (s : State) : (resetEdge s).channels = #v[ChannelState.reset, ChannelState.reset, ChannelState.reset] := rfl
@[simp] theorem resetEdge_stage (s : State) : (resetEdge s).stage = ParamSet.stageReset := rfl
@[simp] theorem resetEdge_active (s : State) : (resetEdge s).active = ParamSet.activeReset := rfl
@[simp] theorem resetEdge_tables (s : State) : (resetEdge s).tables = s.tables := rfl
@[simp] theorem resetEdge_busy (s : State) : (resetEdge s).busy = false := rfl
@[simp] theorem resetEdge_rspBuf (s : State) : (resetEdge s).rspBuf = 0#64 := rfl
@[simp] theorem resetEdge_rspValid (s : State) : (resetEdge s).rspValid = false := rfl
@[simp] theorem resetEdge_command (s : State) : (resetEdge s).command = 0#64 := rfl
@[simp] theorem resetEdge_wait (s : State) : (resetEdge s).wait = 0 := rfl
@[simp] theorem resetEdge_events (s : State) : (resetEdge s).events = [] := rfl
@[simp] theorem resetEdge_inputs (s : State) : (resetEdge s).inputs = s.inputs := rfl
@[simp] theorem resetEdge_latencies (s : State) : (resetEdge s).latencies = s.latencies := rfl
@[simp] theorem resetEdge_edges (s : State) : (resetEdge s).edges = s.edges := rfl

/-! ## acceptCommand -/

@[simp] theorem acceptCommand_channels (s : State) (w : CommandWord) : (acceptCommand s w).channels = s.channels := rfl
@[simp] theorem acceptCommand_stage (s : State) (w : CommandWord) : (acceptCommand s w).stage = s.stage := rfl
@[simp] theorem acceptCommand_active (s : State) (w : CommandWord) : (acceptCommand s w).active = s.active := rfl
@[simp] theorem acceptCommand_tables (s : State) (w : CommandWord) : (acceptCommand s w).tables = s.tables := rfl
@[simp] theorem acceptCommand_busy (s : State) (w : CommandWord) : (acceptCommand s w).busy = true := rfl
@[simp] theorem acceptCommand_rspBuf (s : State) (w : CommandWord) : (acceptCommand s w).rspBuf = s.rspBuf := rfl
@[simp] theorem acceptCommand_rspValid (s : State) (w : CommandWord) : (acceptCommand s w).rspValid = s.rspValid := rfl
@[simp] theorem acceptCommand_command (s : State) (w : CommandWord) : (acceptCommand s w).command = w := rfl
@[simp] theorem acceptCommand_wait (s : State) (w : CommandWord) : (acceptCommand s w).wait = s.latencies.headD 0 := rfl
@[simp] theorem acceptCommand_events (s : State) (w : CommandWord) : (acceptCommand s w).events = s.events := rfl
@[simp] theorem acceptCommand_inputs (s : State) (w : CommandWord) : (acceptCommand s w).inputs = s.inputs := rfl
@[simp] theorem acceptCommand_latencies (s : State) (w : CommandWord) : (acceptCommand s w).latencies = s.latencies.tail := rfl
@[simp] theorem acceptCommand_edges (s : State) (w : CommandWord) : (acceptCommand s w).edges = s.edges := rfl

/-! ## takeResponse -/

@[simp] theorem takeResponse_channels (s : State) : (takeResponse s).channels = s.channels := rfl
@[simp] theorem takeResponse_stage (s : State) : (takeResponse s).stage = s.stage := rfl
@[simp] theorem takeResponse_active (s : State) : (takeResponse s).active = s.active := rfl
@[simp] theorem takeResponse_tables (s : State) : (takeResponse s).tables = s.tables := rfl
@[simp] theorem takeResponse_busy (s : State) : (takeResponse s).busy = false := rfl
@[simp] theorem takeResponse_rspBuf (s : State) : (takeResponse s).rspBuf = s.rspBuf := rfl
@[simp] theorem takeResponse_rspValid (s : State) : (takeResponse s).rspValid = false := rfl
@[simp] theorem takeResponse_command (s : State) : (takeResponse s).command = s.command := rfl
@[simp] theorem takeResponse_wait (s : State) : (takeResponse s).wait = s.wait := rfl
@[simp] theorem takeResponse_events (s : State) : (takeResponse s).events = s.events := rfl
@[simp] theorem takeResponse_inputs (s : State) : (takeResponse s).inputs = s.inputs := rfl
@[simp] theorem takeResponse_latencies (s : State) : (takeResponse s).latencies = s.latencies := rfl
@[simp] theorem takeResponse_edges (s : State) : (takeResponse s).edges = s.edges := rfl

/-! ## withAccepted -/

@[simp] theorem withAccepted_channels (s : State) (w : CommandWord) : (withAccepted s w).channels = s.channels := rfl
@[simp] theorem withAccepted_stage (s : State) (w : CommandWord) : (withAccepted s w).stage = s.stage := rfl
@[simp] theorem withAccepted_active (s : State) (w : CommandWord) : (withAccepted s w).active = s.active := rfl
@[simp] theorem withAccepted_tables (s : State) (w : CommandWord) : (withAccepted s w).tables = s.tables := rfl
@[simp] theorem withAccepted_busy (s : State) (w : CommandWord) : (withAccepted s w).busy = true := rfl
@[simp] theorem withAccepted_rspBuf (s : State) (w : CommandWord) : (withAccepted s w).rspBuf = s.rspBuf := rfl
@[simp] theorem withAccepted_rspValid (s : State) (w : CommandWord) : (withAccepted s w).rspValid = false := rfl
@[simp] theorem withAccepted_command (s : State) (w : CommandWord) : (withAccepted s w).command = w := rfl
@[simp] theorem withAccepted_wait (s : State) (w : CommandWord) : (withAccepted s w).wait = 0 := rfl
@[simp] theorem withAccepted_events (s : State) (w : CommandWord) : (withAccepted s w).events = s.events := rfl
@[simp] theorem withAccepted_inputs (s : State) (w : CommandWord) : (withAccepted s w).inputs = releaseReset s.inputs := rfl
@[simp] theorem withAccepted_latencies (s : State) (w : CommandWord) : (withAccepted s w).latencies = s.latencies := rfl
@[simp] theorem withAccepted_edges (s : State) (w : CommandWord) : (withAccepted s w).edges = s.edges := rfl

/-! ## Channels -/

@[simp] theorem setChan_chan_same (s : State) (c : Channel) (x : ChannelState) : (s.setChan c x).chan c = x := by
  simp [State.chan]

theorem setChan_chan_ne (s : State) {c d : Channel} (x : ChannelState) (h : d ≠ c) :
    (s.setChan c x).chan d = s.chan d := by
  have h' : c.val ≠ d.val := fun e => h (Fin.ext e.symm)
  simp [State.chan, h']

@[simp] theorem complete_chan (s : State) (r : Response) (evs : List OutputEvent) (c : Channel) :
    (complete s r evs).chan c = s.chan c := rfl

@[simp] theorem raiseError_chan (s : State) (w : CommandWord) (e : DecodeError) (c : Channel) :
    (raiseError s w e).chan c = s.chan c := rfl

@[simp] theorem beginEdge_chan (s : State) (c : Channel) : (beginEdge s).chan c = s.chan c := rfl

@[simp] theorem resetEdge_chan (s : State) (c : Channel) : (resetEdge s).chan c = ChannelState.reset := by
  simp only [State.chan, resetEdge_channels]
  fin_cases c <;> rfl

@[simp] theorem acceptCommand_chan (s : State) (w : CommandWord) (c : Channel) :
    (acceptCommand s w).chan c = s.chan c := rfl

@[simp] theorem takeResponse_chan (s : State) (c : Channel) : (takeResponse s).chan c = s.chan c := rfl

@[simp] theorem reset_chan (c : Channel) : State.reset.chan c = ChannelState.reset := by
  fin_cases c <;> rfl

/-- Two channel files with the same channels are the same. -/
theorem channels_eq_of_chan {s t : State} (h : ∀ c, t.chan c = s.chan c) : t.channels = s.channels := by
  ext1 i hi
  exact h ⟨i, hi⟩

/-! ## Fields of a parameter set -/

@[simp] theorem slideModeOfBits_bits (m : SlideMode) : slideModeOfBits (slideModeBits m) = m := by
  cases m <;> rfl

theorem setField_field_ne (p : ParamSet) {f g : ParamField} (v : Param) (h : g ≠ f) :
    (p.setField f v).field g = p.field g := by
  cases f <;> cases g <;> first | rfl | exact absurd rfl h

theorem setField_field_same (p : ParamSet) {f : ParamField} (v : Param) (h : f ≠ .sm) :
    (p.setField f v).field f = v := by
  cases f <;> first | rfl | exact absurd rfl h

end Sys2Proof.Laws
end

