-- ==== Sys2Proof/Laws/Ops.lean ====
section
/-! SUPPORT. One lemma per shared operation that says what it can do; proofs cite these and do not unfold. -/

namespace Sys2Proof.Laws

open Sys2Proof.Machine

/-! ## Exact arithmetic narrowed to a register -/

@[simp] theorem clampAmplitude_toNat (n : Nat) : (clampAmplitude n).toNat = min n 65535 := by
  simp only [clampAmplitude, Config.ampMax, BitVec.toNat_ofNat]
  omega

@[simp] theorem clampTime_toNat (p : Param) : (clampTime p).toNat = max p.toNat 1 := by
  have := p.isLt
  simp only [clampTime, Config.epsMs, BitVec.toNat_ofNat]
  omega

/-- `trunc_div` is R14's `sign(a*b) * floor_div(|a|, |b|)`. -/
theorem truncDiv_eq (a b : Int) : truncDiv a b = Int.sign (a * b) * (a.natAbs / b.natAbs : Nat) := by
  rw [truncDiv, Int.sign_mul]
  rcases lt_trichotomy a 0 with ha | rfl | ha
  · rcases lt_trichotomy b 0 with hb | rfl | hb
    · have h := Int.tdiv_eq_ediv_of_nonneg (a := -a) (b := -b) (by omega)
      rw [Int.neg_tdiv, Int.tdiv_neg, neg_neg] at h
      rw [h, Int.sign_eq_neg_one_of_neg ha, Int.sign_eq_neg_one_of_neg hb]
      simp only [Int.natCast_ediv, Int.ofNat_natAbs_of_nonpos ha.le, Int.ofNat_natAbs_of_nonpos hb.le]
      ring
    · simp
    · have h := Int.tdiv_eq_ediv_of_nonneg (a := -a) (b := b) (by omega)
      rw [Int.neg_tdiv] at h
      rw [Int.sign_eq_neg_one_of_neg ha, Int.sign_eq_one_of_pos hb]
      simp only [Int.natCast_ediv, Int.ofNat_natAbs_of_nonpos ha.le, Int.natAbs_of_nonneg hb.le]
      omega
  · simp
  · rcases lt_trichotomy b 0 with hb | rfl | hb
    · have h := Int.tdiv_eq_ediv_of_nonneg (a := a) (b := -b) (by omega)
      rw [Int.tdiv_neg] at h
      rw [Int.sign_eq_one_of_pos ha, Int.sign_eq_neg_one_of_neg hb]
      simp only [Int.natCast_ediv, Int.natAbs_of_nonneg ha.le, Int.ofNat_natAbs_of_nonpos hb.le]
      omega
    · simp
    · have h := Int.tdiv_eq_ediv_of_nonneg (a := a) (b := b) (by omega)
      rw [h, Int.sign_eq_one_of_pos ha, Int.sign_eq_one_of_pos hb]
      simp only [Int.natCast_ediv, Int.natAbs_of_nonneg ha.le, Int.natAbs_of_nonneg hb.le]
      ring

/-- Saturation keeps a value in range as it is and moves one out of range to the nearer end, with SAT (R77). -/
theorem saturateFrequency_cases (r : Int) :
    (r < 0 ∧ saturateFrequency r = (0#32, true)) ∨
    (2 ^ 32 - 1 < r ∧ saturateFrequency r = (0xFFFFFFFF#32, true)) ∨
    (0 ≤ r ∧ r ≤ 2 ^ 32 - 1 ∧ saturateFrequency r = (BitVec.ofNat 32 r.toNat, false)) := by
  unfold saturateFrequency Config.freqMax
  split
  · exact .inl ⟨‹_›, rfl⟩
  · split
    · exact .inr (.inl ⟨by omega, rfl⟩)
    · refine .inr (.inr ⟨by omega, by omega, ?_⟩)
      congr 1
      apply BitVec.eq_of_toNat_eq
      simp only [BitVec.toNat_ofInt, BitVec.toNat_ofNat]
      omega

@[simp] theorem pwmDuty_toNat (amp : Amplitude) (dc : Param) :
    (pwmDuty amp dc).toNat = min (amp.toNat * dc.toNat / 1000) 65535 := clampAmplitude_toNat _

/-- The elapsed time as R82's residue. -/
theorem elapsed_eq (t t0 : Time) : elapsed t t0 = elapsedMs t t0 := by
  have := t0.isLt
  simp only [elapsed, elapsedMs, BitVec.toNat_sub]
  congr 1
  omega

/-- `Derive` copies four fields and raises each time to at least 1 (R105). -/
theorem derive_fields (p : ParamSet) :
    (derive p).maxLevel = p.maxLevel ∧ (derive p).dutyCycle = p.dutyCycle ∧ (derive p).slideMode = p.slideMode ∧
      (derive p).sustain = p.sustain ∧ (derive p).attack.toNat = max p.attack.toNat 1 ∧
      (derive p).decay.toNat = max p.decay.toNat 1 ∧ (derive p).release.toNat = max p.release.toNat 1 :=
  ⟨rfl, rfl, rfl, rfl, clampTime_toNat _, clampTime_toNat _, clampTime_toNat _⟩

/-! ## The scan of the nearest index -/

/-- The scan answers the entry it started from or one it visited. -/
theorem nearestScan_mem (cal : CalTable) (v : Voltage) (l : List EntryIndex) (b : EntryIndex) :
    nearestScan cal v l b = b ∨ nearestScan cal v l b ∈ l := by
  induction l generalizing b with
  | nil => exact .inl rfl
  | cons i rest ih =>
    rw [nearestScan]
    split
    · rcases ih i with h | h
      · exact .inr (by simp [h])
      · exact .inr (List.mem_cons_of_mem _ h)
    · rcases ih b with h | h
      · exact .inl h
      · exact .inr (List.mem_cons_of_mem _ h)

/-- No entry visited lies nearer than the answer, nor does the entry the scan started from. -/
theorem nearestScan_le (cal : CalTable) (v : Voltage) (l : List EntryIndex) (b : EntryIndex) :
    calDistance cal v (nearestScan cal v l b) ≤ calDistance cal v b ∧
      ∀ i ∈ l, calDistance cal v (nearestScan cal v l b) ≤ calDistance cal v i := by
  induction l generalizing b with
  | nil => simp [nearestScan]
  | cons i rest ih =>
    rw [nearestScan]
    split
    · next h =>
      obtain ⟨h1, h2⟩ := ih i
      refine ⟨by omega, fun j hj => ?_⟩
      rcases List.mem_cons.1 hj with rfl | hj
      · exact h1
      · exact h2 j hj
    · next h =>
      obtain ⟨h1, h2⟩ := ih b
      refine ⟨h1, fun j hj => ?_⟩
      rcases List.mem_cons.1 hj with rfl | hj
      · omega
      · exact h2 j hj

/-- The neighbour of an interior entry stands one above it or one below it, by the voltages (R76). -/
theorem neighbour_cases (cal : CalTable) (v : Voltage) (idx : EntryIndex) (h0 : idx ≠ 0) (h23 : idx ≠ 23) :
    (cal[idx].toNat < v.toNat ∧ (neighbour cal v idx).val = idx.val + 1) ∨
      (v.toNat ≤ cal[idx].toNat ∧ (neighbour cal v idx).val + 1 = idx.val) := by
  have hlt := idx.isLt
  have h0' : idx.val ≠ 0 := fun h => h0 (Fin.ext h)
  have h23' : idx.val ≠ 23 := fun h => h23 (Fin.ext h)
  unfold neighbour
  split
  · next h =>
    refine .inl ⟨h, ?_⟩
    change (idx.val + 1) % 24 = _
    omega
  · next h =>
    refine .inr ⟨by omega, ?_⟩
    change (idx.val - 1) % 24 + 1 = _
    omega

/-! ## The gate and the frequency drive -/

/-- `GateUpdate` does one of three things: it opens, it closes, or it meets the gate at its level (R94 to R97). -/
theorem gateUpdate_cases (x : ChannelState) (v : Voltage) (t : Time) :
    (x.gate = false ∧ 983 ≤ v.toNat ∧ gateUpdate x v t =
      { chan := { x with gate := true, onV := true, onT := t, offV := false, offT := 0#32 },
        rise := true, fall := false }) ∨
    (x.gate = true ∧ v.toNat < 983 ∧ gateUpdate x v t =
      { chan := { x with gate := false, offV := true, offT := t, onV := false, onT := 0#32 },
        rise := false, fall := true }) ∨
    (x.gate = decide (983 ≤ v.toNat) ∧ gateUpdate x v t = { chan := x, rise := false, fall := false }) := by
  rcases x with ⟨g, a, b, c, d, e, f, h⟩
  by_cases hv : 983 ≤ v.toNat <;> cases g <;>
    simp [gateUpdate, gateOpen, Config.gateTh, hv, Nat.not_le.1]

/-- The frequency drive keeps the gate, the timestamps and the duty, and writes the frequency of an open tick (R98). -/
theorem driveFrequency_frame (x : ChannelState) (m : Option PitchResult) :
    (driveFrequency x m).gate = x.gate ∧ (driveFrequency x m).onV = x.onV ∧ (driveFrequency x m).onT = x.onT ∧
      (driveFrequency x m).offV = x.offV ∧ (driveFrequency x m).offT = x.offT ∧
      (driveFrequency x m).dutyOut = x.dutyOut := by
  cases m <;> exact ⟨rfl, rfl, rfl, rfl, rfl, rfl⟩

/-! ## The pulses of the output ports -/

/-- Without events no pulse stands (R50). -/
theorem pulses_of_no_events {s : State} (h : s.events = []) (c : Channel) :
    freqSetPort s c = false ∧ dutySetPort s c = false := by
  simp [freqSetPort, dutySetPort, h]

/-- The pulses of an open tick: both of its own channel and no other, while `rst` is low (R50, R100). -/
theorem pulses_of_open_tick {s : State} {c : Channel} {f : Frequency} {d : Amplitude}
    (h : s.events = [.freqSet c f, .dutySet c d]) (hr : s.pins.rst = false) (e : Channel) :
    freqSetPort s e = decide (c = e) ∧ dutySetPort s e = decide (c = e) := by
  simp [freqSetPort, dutySetPort, h, hr, isFreqSet, isDutySet]

/-- The pulse of a closed tick: `duty_set` of its own channel and nothing else, while `rst` is low (R50, R100). -/
theorem pulses_of_closed_tick {s : State} {c : Channel} {d : Amplitude}
    (h : s.events = [.dutySet c d]) (hr : s.pins.rst = false) (e : Channel) :
    freqSetPort s e = false ∧ dutySetPort s e = decide (c = e) := by
  simp [freqSetPort, dutySetPort, h, hr, isFreqSet, isDutySet]

/-! ## Completion and the clock edge -/

/-- Every command completes, from every state. -/
theorem exec_next (i : Instr) (s : State) : ∃ t, exec i s = .next t := by
  cases i <;> exact ⟨_, rfl⟩

/-- A word runs the command it decodes to, or raises its error; it never stops the machine (R54). -/
theorem runCommand_cases (w : CommandWord) (s : State) :
    (∃ i, decode w = .ok i ∧ runCommand w s = exec i s) ∨
      ∃ e, decode w = .error e ∧ runCommand w s = .next (raiseError s w e) := by
  unfold runCommand
  cases h : decode w with
  | ok i => exact .inl ⟨i, rfl, rfl⟩
  | error e => exact .inr ⟨e, rfl, rfl⟩

/-- What one edge does (R49 to R52, R127): the five cases, each with its test. -/
theorem step_cases (s : State) :
    (s.pins.rst = true ∧ step s = .next (resetEdge (beginEdge s))) ∨
    (s.pins.rst = false ∧ s.busy = false ∧ step s = .next (readyEdge s.pins (beginEdge s))) ∨
    (s.pins.rst = false ∧ s.busy = true ∧ s.rspValid = true ∧
      step s = .next (respondingEdge s.pins (beginEdge s))) ∨
    (∃ n, s.pins.rst = false ∧ s.busy = true ∧ s.rspValid = false ∧ s.wait = n + 1 ∧
      step s = .next { beginEdge s with wait := n }) ∨
    (s.Completing ∧ step s = runCommand s.command (beginEdge s)) := by
  unfold step clockEdge
  cases hr : s.pins.rst
  · cases hb : s.busy
    · exact .inr (.inl ⟨rfl, rfl, by simp⟩)
    · cases hv : s.rspValid
      · have he : (if (false : Bool) = true then Host.Outcome.next (resetEdge (beginEdge s))
            else if (true : Bool) = true then
              if (false : Bool) = true then .next (respondingEdge s.pins (beginEdge s)) else executingEdge (beginEdge s)
            else .next (readyEdge s.pins (beginEdge s))) = executingEdge (beginEdge s) := by simp
        rw [he]
        cases hw : s.wait with
        | zero => exact .inr (.inr (.inr (.inr ⟨⟨hr, hb, hv, hw⟩, by simp [executingEdge, hw]⟩)))
        | succ n => exact .inr (.inr (.inr (.inl ⟨n, rfl, rfl, rfl, rfl, by simp [executingEdge, hw]⟩)))
      · exact .inr (.inr (.inl ⟨rfl, rfl, rfl, by simp⟩))
  · exact .inl ⟨rfl, by simp⟩

/-- A ready block accepts what is offered, and else does nothing. -/
theorem readyEdge_cases (p : HostInputs) (s : State) :
    (p.cmdValid = true ∧ readyEdge p s = acceptCommand s p.cmdData) ∨ (p.cmdValid = false ∧ readyEdge p s = s) := by
  unfold readyEdge
  cases h : p.cmdValid <;> simp

/-- An offered response is taken or held. -/
theorem respondingEdge_cases (p : HostInputs) (s : State) :
    (p.rspReady = true ∧ respondingEdge p s = takeResponse s) ∨ (p.rspReady = false ∧ respondingEdge p s = s) := by
  unfold respondingEdge
  cases h : p.rspReady <;> simp

end Sys2Proof.Laws
end

