-- ==== Sys2Proof/Laws/PerInstr.lean ====
section
/-! SUPPORT. Families of facts stated per command. `EncodeMatches`: the encoding of a command carries its opcode and its
bits under the mask of R59 are the match value of R59. -/

namespace Sys2Proof.Laws

/-- The match column of R59. -/
def opcodeMatch : Opcode → CommandWord
  | .mapq => 0x0400000000000000#64
  | .mapi => 0x0800000000000000#64
  | .envq => 0x1000000000000000#64
  | .tick => 0x2000000000000000#64
  | .setp => 0x4000000000000000#64
  | .apply => 0x4400000000000000#64
  | .rdps => 0x4800000000000000#64
  | .rdpa => 0x4C00000000000000#64
  | .rdch => 0x8000000000000000#64
  | .rdcal => 0x8400000000000000#64
  | .rdnote => 0x8800000000000000#64

/-- The encoding of `i` names the opcode of `i` and matches the row of that opcode in R59. -/
def EncodeMatches.Statement (i : Instr) : Prop :=
  opField (encode i) = opcodeBits i.opcode ∧ encode i &&& opcodeMask i.opcode = opcodeMatch i.opcode

namespace EncodeMatches

/-- A packed word under a mask, field by field. -/
theorem packCommand_mask (op : BitVec 6) (ch : BitVec 2) (sel : BitVec 3) (idx : BitVec 5) (v : BitVec 16) (t : BitVec 32)
    (m : CommandWord) :
    packCommand op ch sel idx v t &&& m =
      packCommand (op &&& opField m) (ch &&& chField m) (sel &&& selField m) (idx &&& idxField m) (v &&& vField m)
        (t &&& tField m) := by
  rw [← packCommand_and, packCommand_fields]

theorem mapq (c : Channel) (v : Voltage) : Statement (.mapq c v) := by
  refine ⟨by simp [encode, Instr.opcode, opcodeBits], ?_⟩
  rw [encode, packCommand_mask, Instr.opcode,
    show chField (opcodeMask .mapq) = 0#2 from by decide, BitVec.and_zero,
    show vField (opcodeMask .mapq) = 0#16 from by decide, BitVec.and_zero]
  decide

theorem mapi (c : Channel) (v : Voltage) : Statement (.mapi c v) := by
  refine ⟨by simp [encode, Instr.opcode, opcodeBits], ?_⟩
  rw [encode, packCommand_mask, Instr.opcode,
    show chField (opcodeMask .mapi) = 0#2 from by decide, BitVec.and_zero,
    show vField (opcodeMask .mapi) = 0#16 from by decide, BitVec.and_zero]
  decide

theorem envq (c : Channel) (t : Time) : Statement (.envq c t) := by
  refine ⟨by simp [encode, Instr.opcode, opcodeBits], ?_⟩
  rw [encode, packCommand_mask, Instr.opcode,
    show chField (opcodeMask .envq) = 0#2 from by decide, BitVec.and_zero,
    show tField (opcodeMask .envq) = 0#32 from by decide, BitVec.and_zero]
  decide

theorem tick (c : Channel) (v : Voltage) (t : Time) : Statement (.tick c v t) := by
  refine ⟨by simp [encode, Instr.opcode, opcodeBits], ?_⟩
  rw [encode, packCommand_mask, Instr.opcode,
    show chField (opcodeMask .tick) = 0#2 from by decide, BitVec.and_zero,
    show vField (opcodeMask .tick) = 0#16 from by decide, BitVec.and_zero,
    show tField (opcodeMask .tick) = 0#32 from by decide, BitVec.and_zero]
  decide

theorem setp (f : ParamField) (v : Param) : Statement (.setp f v) := by
  refine ⟨by simp [encode, Instr.opcode, opcodeBits], ?_⟩
  rw [encode, packCommand_mask, Instr.opcode,
    show selField (opcodeMask .setp) = 0#3 from by decide, BitVec.and_zero,
    show vField (opcodeMask .setp) = 0#16 from by decide, BitVec.and_zero]
  decide

theorem apply : Statement .apply := by
  refine ⟨by simp [encode, Instr.opcode, opcodeBits], ?_⟩
  rw [encode, packCommand_mask, Instr.opcode]
  decide

theorem rdps (f : ParamField) : Statement (.rdps f) := by
  refine ⟨by simp [encode, Instr.opcode, opcodeBits], ?_⟩
  rw [encode, packCommand_mask, Instr.opcode,
    show selField (opcodeMask .rdps) = 0#3 from by decide, BitVec.and_zero]
  decide

theorem rdpa (f : ParamField) : Statement (.rdpa f) := by
  refine ⟨by simp [encode, Instr.opcode, opcodeBits], ?_⟩
  rw [encode, packCommand_mask, Instr.opcode,
    show selField (opcodeMask .rdpa) = 0#3 from by decide, BitVec.and_zero]
  decide

theorem rdch (c : Channel) (view : ChannelView) : Statement (.rdch c view) := by
  refine ⟨by simp [encode, Instr.opcode, opcodeBits], ?_⟩
  rw [encode, packCommand_mask, Instr.opcode,
    show chField (opcodeMask .rdch) = 0#2 from by decide, BitVec.and_zero,
    show selField (opcodeMask .rdch) = 0#3 from by decide, BitVec.and_zero]
  decide

theorem rdcal (c : Channel) (i : EntryIndex) : Statement (.rdcal c i) := by
  refine ⟨by simp [encode, Instr.opcode, opcodeBits], ?_⟩
  rw [encode, packCommand_mask, Instr.opcode,
    show chField (opcodeMask .rdcal) = 0#2 from by decide, BitVec.and_zero,
    show idxField (opcodeMask .rdcal) = 0#5 from by decide, BitVec.and_zero]
  decide

theorem rdnote (i : EntryIndex) : Statement (.rdnote i) := by
  refine ⟨by simp [encode, Instr.opcode, opcodeBits], ?_⟩
  rw [encode, packCommand_mask, Instr.opcode,
    show idxField (opcodeMask .rdnote) = 0#5 from by decide, BitVec.and_zero]
  decide

end EncodeMatches

end Sys2Proof.Laws
end

