-- ==== Sys2Proof/Tests/Slice0.lean ====
section
/-! SUPPORT. Tests on fixed values, each expected value from the spec, and one witness for each obligation that has
hypotheses. The tables are the fixture of `95_test_vectors.md` section 1. -/

namespace Sys2Proof.Tests

open Sys2Proof Sys2Proof.Machine

/-! ## The fixture and helpers -/

/-- `CAL[0]` ascends, `CAL[1]` has a repeated entry and dips, `CAL[2]` descends. -/
def calFixture : Vector CalTable 3 :=
  #v[Vector.ofFn fun i => BitVec.ofNat 16 (1000 + 2000 * i.val),
    #v[1000, 3000, 5000, 7000, 7000, 11000, 13000, 15000, 17000, 19000, 18000, 23000, 25000, 27000, 29000, 31000, 30999,
      35000, 37000, 41001, 41000, 43000, 45000, 47000],
    Vector.ofFn fun i => BitVec.ofNat 16 (47000 - 2000 * i.val)]

/-- `NOTE[i] = (100 + 10 i + i^2) << 16`. -/
def noteFixture : NoteTable := Vector.ofFn fun i => BitVec.ofNat 32 ((100 + 10 * i.val + i.val * i.val) * 65536)

/-- The block after reset with the fixture's tables. -/
def fixture : State := { State.reset with tables := { cal := calFixture, note := noteFixture } }

/-- An open channel whose note began at 1000. -/
def openChannel : ChannelState :=
  { gate := true, onV := true, onT := 1000#32, offV := false, offT := 0#32, freqOut := 0x007C0000#32, fvalid := true,
    dutyOut := 5853#16 }

/-- A closed channel whose note ended at 2000. -/
def closedChannel : ChannelState :=
  { gate := false, onV := false, onT := 0#32, offV := true, offT := 2000#32, freqOut := 0x007C0000#32, fvalid := true,
    dutyOut := 3932#16 }

/-- The fixture with channel 0 open. -/
def openState : State := fixture.setChan 0 openChannel

/-- The fixture with channel 0 closed after a note. -/
def closedState : State := fixture.setChan 0 closedChannel

/-- The state an outcome gives; the fixture where it gives none. -/
def nextOf : Host.Outcome State Fault Refusal → State
  | .next t => t
  | .fault _ => fixture
  | .refused _ => fixture

/-- The word runs at the next edge: the state after it. -/
def ran (s : State) (w : CommandWord) : State := nextOf (step (withAccepted s w))

/-- A host that offers a word, then waits two edges, then takes the response. -/
def offering (w : CommandWord) : List HostInputs :=
  [{ rst := false, cmdValid := true, cmdData := w, rspReady := false }, .idle, .idle,
    { rst := false, cmdValid := false, cmdData := 0#64, rspReady := true }]

set_option maxRecDepth 100000

/-! ## Well-formedness -/

/-- R62 (e): the one value check refuses an ill-formed term and passes a well-formed one. -/
theorem test_wellFormed_refuses_slide_mode_2 : (Instr.setp .sm 2#16).wellFormed = false := by decide
theorem test_wellFormed_passes_slide_mode_1 : (Instr.setp .sm 1#16).wellFormed = true := by decide

/-! ## Decoding: words written out field by field from R55 and R58 -/

/-- The six fields are OP, CH, SEL, IDX, V and T, here and in the ten theorems below. -/
theorem test_decode_mapq :
    decode (0b000001#6 ++ 0b10#2 ++ 0b000#3 ++ 0b00000#5 ++ 5600#16 ++ 0#32) = .ok (.mapq 2 5600#16) := by decide
theorem test_decode_mapi :
    decode (0b000010#6 ++ 0b01#2 ++ 0b000#3 ++ 0b00000#5 ++ 7500#16 ++ 0#32) = .ok (.mapi 1 7500#16) := by decide
theorem test_decode_envq :
    decode (0b000100#6 ++ 0b01#2 ++ 0b000#3 ++ 0b00000#5 ++ 0#16 ++ 400#32) = .ok (.envq 1 400#32) := by decide
theorem test_decode_tick :
    decode (0b001000#6 ++ 0b10#2 ++ 0b000#3 ++ 0b00000#5 ++ 5600#16 ++ 1000#32) = .ok (.tick 2 5600#16 1000#32) := by
  decide
theorem test_decode_setp :
    decode (0b010000#6 ++ 0b00#2 ++ 0b011#3 ++ 0b00000#5 ++ 100#16 ++ 0#32) = .ok (.setp .att 100#16) := by decide
theorem test_decode_apply :
    decode (0b010001#6 ++ 0b00#2 ++ 0b000#3 ++ 0b00000#5 ++ 0#16 ++ 0#32) = .ok .apply := by decide
theorem test_decode_rdps :
    decode (0b010010#6 ++ 0b00#2 ++ 0b110#3 ++ 0b00000#5 ++ 0#16 ++ 0#32) = .ok (.rdps .re) := by decide
theorem test_decode_rdpa :
    decode (0b010011#6 ++ 0b00#2 ++ 0b101#3 ++ 0b00000#5 ++ 0#16 ++ 0#32) = .ok (.rdpa .su) := by decide
theorem test_decode_rdch :
    decode (0b100000#6 ++ 0b01#2 ++ 0b100#3 ++ 0b00000#5 ++ 0#16 ++ 0#32) = .ok (.rdch 1 .duty) := by decide
theorem test_decode_rdcal :
    decode (0b100001#6 ++ 0b10#2 ++ 0b000#3 ++ 0b10111#5 ++ 0#16 ++ 0#32) = .ok (.rdcal 2 23) := by decide
theorem test_decode_rdnote :
    decode (0b100010#6 ++ 0b00#2 ++ 0b000#3 ++ 0b00101#5 ++ 0#16 ++ 0#32) = .ok (.rdnote 5) := by decide

/-- SEL of SETP, RDPS and RDPA: the seven fields in R57's order. -/
theorem test_decode_every_field :
    (List.range 7).map (fun k => paramFieldOfBits (BitVec.ofNat 3 k)) =
      [some .ml, some .dc, some .sm, some .att, some .de, some .su, some .re] := by decide

/-- SEL of RDCH: the five views in R57's order. -/
theorem test_decode_every_view :
    (List.range 5).map (fun k => channelViewOfBits (BitVec.ofNat 3 k)) =
      [some .status, some .onTime, some .offTime, some .freq, some .duty] := by decide

/-- The order of the checks, from the error vectors of `95_test_vectors.md`: RDCH c3 SEL 5; RDCAL c3, 30; the same with
V = 1; RDNOTE 24; SETP sm, 2. -/
theorem test_decode_errors :
    decode 0x83A0000000000000#64 = .error .illegal ∧ decode 0x871E000000000000#64 = .error .badCh ∧
    decode 0x871E000100000000#64 = .error .illegal ∧ decode 0x8818000000000000#64 = .error .badIdx ∧
    decode 0x4040000200000000#64 = .error .illegal := by decide

/-- Word 0 and a word with a reserved OP are rejected; nine bytes are no word (R40, R59). -/
theorem test_decode_bytes :
    decodeBytes [0, 0, 0, 0, 0, 0, 0, 0] = .error (.rejected .illegal) ∧
    decodeBytes [0, 0, 0, 0, 0xE0, 0x15, 0, 0x04] = .ok (.mapq 0 5600) ∧
    decodeBytes [0, 0, 0, 0, 0xE0, 0x15, 0, 0x04, 0] = .error .notOneWord := by decide

theorem test_decodeTableWord_reads_a_command :
    decodeTableWord 64 0x8612000000000000 = some (.rdcal 2 18) ∧ decodeTableWord 64 0 = none := by decide

/-! ## One step per command, from the vectors of `95_test_vectors.md` -/

/-- V1 rows 7 and 13: MAPQ. -/
theorem test_mapq : (ran fixture 0x040007D100000000#64).rspBuf = 0x04000100006F0000#64 := by decide

/-- E5 row 5: MAPQ on a repeated entry answers the lower index. -/
theorem test_mapq_repeated : (ran fixture 0x05001B5800000000#64).rspBuf = 0x05000300008B0000#64 := by decide

/-- V1 row 8: MAPI truncates a negative quotient toward zero. -/
theorem test_mapi_truncates : (ran fixture 0x080007D100000000#64).rspBuf = 0x0800010000698169#64 := by decide

/-- V1 row 30: MAPI saturates below zero. -/
theorem test_mapi_saturates : (ran fixture 0x09007B0C00000000#64).rspBuf = 0x09020F0000000000#64 := by decide

/-- E2 rows 1, 2 and 4: ENVQ in ATTACK, at the attack boundary and in SUSTAIN. -/
theorem test_envq_note_on :
    (ran openState 0x10000000000003E8#64).rspBuf = 0x1008000000000000#64 ∧
    (ran openState 0x10000000000003E9#64).rspBuf = 0x1010000000004CCC#64 ∧
    (ran openState 0x1000000000000579#64).rspBuf = 0x1018000000003333#64 := by decide

/-- E2 release row 2: ENVQ one millisecond before the end of the release. -/
theorem test_envq_release : (ran closedState 0x100000000000095F#64).rspBuf = 0x1020000000000020#64 := by decide

/-- P1 row 2: TICK in DECAY, response and events. -/
theorem test_tick :
    (ran openState 0x200015E0000003F2#64).rspBuf = 0x201022004C3916DD#64 ∧
    (ran openState 0x200015E0000003F2#64).events = [.freqSet 0 0x007C0000#32, .dutySet 0 5853#16] := by decide

/-- P5 row 2: TICK at the threshold opens the gate of channel 1. -/
theorem test_tick_opens :
    (ran fixture 0x210003D700000064#64).rspBuf = 0x2108600000000000#64 ∧
    ((ran fixture 0x210003D700000064#64).chan 1).onT = 100#32 := by decide

/-- P2 row 1: SETP sm, noq. -/
theorem test_setp :
    (ran fixture 0x4040000100000000#64).rspBuf = 0x4000000000000000#64 ∧
    (ran fixture 0x4040000100000000#64).stage.slideMode = .interpolated ∧
    (ran fixture 0x4040000100000000#64).active.slideMode = .quantized := by decide

/-- P4 row 8 and R105: APPLY clamps a staged attack of 0 to 1 and copies the rest. -/
theorem test_apply :
    (ran fixture 0x4400000000000000#64).rspBuf = 0x4400000000000000#64 ∧
    (ran fixture 0x4400000000000000#64).active.attack = 1#16 := by decide

/-- R107 and R24: RDPS de answers 400 after reset. -/
theorem test_rdps : (ran fixture 0x4880000000000000#64).rspBuf = 0x4800000000000190#64 := by decide

/-- R108 and R24: RDPA at answers 1 after reset. -/
theorem test_rdpa : (ran fixture 0x4C60000000000000#64).rspBuf = 0x4C00000000000001#64 := by decide

/-- P1 row 8: RDCH status of a closed channel answers OFF_V and FVALID. -/
theorem test_rdch_status : (ran closedState 0x8000000000000000#64).rspBuf = 0x800000000000000C#64 := by decide

/-- P2 row 9: RDCAL c2, 18. -/
theorem test_rdcal : (ran fixture 0x8612000000000000#64).rspBuf = 0x8600120000002AF8#64 := by decide

/-- P2 row 10: RDNOTE 18. -/
theorem test_rdnote : (ran fixture 0x8812000000000000#64).rspBuf = 0x88001200025C0000#64 := by decide

/-- P3 row 3: a TICK of channel 3 answers BAD_CH and leaves an open channel as it was. -/
theorem test_error_response :
    (ran openState 0x2300000000000014#64).rspBuf = 0x2380000000000000#64 ∧
    (ran openState 0x2300000000000014#64).chan 0 = openChannel := by decide

/-! ## Assembler and patch conversion -/

/-- The lines of P2 rows 1 and 9 and V6's `SETP sm, 2`; c3 is no channel name. -/
theorem test_assemble :
    assembleLine "SETP sm, noq" = .ok [0x4040000100000000#64] ∧
    assembleLine "RDCAL c2, 18" = .ok [0x8612000000000000#64] ∧
    assembleLine "SETP sm, 2" = .ok [0x4040000200000000#64] ∧
    assembleLine "RDCH c3, status" = .error .badOperand := by decide

/-- P5: TICK3 expands to three TICKs with one time. -/
theorem test_assemble_tick3 :
    assembleLine "TICK3 6000, 983, 0, 100" =
      .ok [0x2000177000000064#64, 0x210003D700000064#64, 0x2200000000000064#64] := by decide

/-- R103: 0.3 becomes 300 and 0.4 s becomes 400 ms, the default patch of R24. -/
theorem test_patch : patchParam (3 / 10) = 300#16 ∧ patchParam (4 / 10) = 400#16 := by decide +kernel

/-! ## Witnesses: states and operands that meet the hypotheses of each obligation, one per clause -/

/-- A state that offers a response with two pulses standing. -/
def responding : State := ran openState 0x200015E0000003F2#64

/-- P1 row 2 on the ports: both pulses of channel 0 and no other, with the frequency and the duty, for one cycle. -/
theorem test_ports_after_tick :
    (List.finRange 3).map (freqSetPort responding) = [true, false, false] ∧
    (List.finRange 3).map (dutySetPort responding) = [true, false, false] ∧
    freqOutPort responding 0 = 0x007C0000#32 ∧ dutyOutPort responding 0 = 5853#16 ∧
    (List.finRange 3).map (dutySetPort (nextOf (step responding))) = [false, false, false] := by decide

/-- E1 row 3 on the ports: a closing TICK pulses `duty_set` alone and keeps the frequency. -/
theorem test_ports_after_closing_tick :
    freqSetPort (ran openState 0x2000000000000190#64) 0 = false ∧
    dutySetPort (ran openState 0x2000000000000190#64) 0 = true ∧
    freqOutPort (ran openState 0x2000000000000190#64) 0 = 0x007C0000#32 ∧
    dutyOutPort (ran openState 0x2000000000000190#64) 0 = 3932#16 := by decide

/-- The fixture with a word due at the next edge. -/
def due (w : CommandWord) : State := withAccepted fixture w

/-- A parameter set with distinct times: AT 100, DE 200, RE 300, ML 1000, SU 500. -/
def params : ParamSet :=
  { maxLevel := 1000#16, dutyCycle := 500#16, slideMode := .quantized, attack := 100#16, decay := 200#16,
    sustain := 500#16, release := 300#16 }

theorem test_witness_DecodeOfEncode : (Instr.setp .sm 1#16).WellFormed ∧ (Instr.rdcal 2 23).WellFormed := by decide

theorem test_witness_DecodableWordIsTheOneEncoding : decode 0x8612000000000000#64 = .ok (.rdcal 2 18) := by decide

theorem test_witness_OutOfRangeExactly :
    decode 0x070015E000000000#64 = .error .badCh ∧ decode 0x8418000000000000#64 = .error .badIdx ∧
    decode 0x8417000000000000#64 = .ok (.rdcal 0 23) := by decide

theorem test_witness_BridgeCarriesTheWord :
    wordOfBytes [1, 2, 3, 4, 5, 6, 7, 8] = some 0x0807060504030201#64 := by decide

theorem test_witness_StepRunsTheDecodedCommand :
    (due 0x4400000000000000#64).Completing ∧ decode (due 0x4400000000000000#64).command = .ok .apply :=
  ⟨⟨by decide, by decide, by decide, by decide⟩, by decide⟩

theorem test_witness_PlacedCommandRuns : (Instr.tick 2 983#16 0xFFFFFFFF#32).WellFormed := by decide

/-- One word per error. -/
theorem test_witness_ErroneousCommandHasNoEffect :
    ((due 0#64).Completing ∧ decode (due 0#64).command = .error .illegal) ∧
    ((due 0x2300000000000014#64).Completing ∧ decode (due 0x2300000000000014#64).command = .error .badCh) ∧
    ((due 0x8818000000000000#64).Completing ∧ decode (due 0x8818000000000000#64).command = .error .badIdx) :=
  ⟨⟨⟨by decide, by decide, by decide, by decide⟩, by decide⟩, ⟨⟨by decide, by decide, by decide, by decide⟩, by decide⟩,
    ⟨by decide, by decide, by decide, by decide⟩, by decide⟩

theorem test_witness_ResetEdgeResetsFromAnyState :
    ({ responding with inputs := [{ HostInputs.idle with rst := true }] } : State).pins.rst = true ∧
    responding.busy = true ∧ responding.events ≠ [] := by decide

/-- An edge that accepts, and edges that do not: no word offered, the block busy, reset. -/
theorem test_witness_AcceptanceSamplesTheWord :
    cmdReadyPort { fixture with inputs := offering 0#64 } = true ∧
    cmdReadyPort { fixture with inputs := [.idle] } = true ∧ HostInputs.idle.cmdValid = false ∧
    cmdReadyPort { responding with inputs := offering 0#64 } = false ∧
    cmdReadyPort { fixture with inputs := [{ HostInputs.idle with rst := true, cmdValid := true }] } = false := by decide

/-- The response held, and the response taken with the next cycle out of reset. -/
theorem test_witness_ResponseIsHeldUntilTaken :
    (responding.pins.rst = false ∧ responding.busy = true ∧ responding.rspValid = true ∧
      responding.pins.rspReady = false) ∧
    ({ responding with inputs := [{ HostInputs.idle with rspReady := true }] } : State).pins.rspReady = true ∧
    (nextOf (step { responding with inputs := [{ HostInputs.idle with rspReady := true }] })).pins.rst = false := by
  decide

theorem test_witness_UntakenResponseStallsTheBlock :
    responding.busy = true ∧ responding.rspValid = true ∧
    ∀ p ∈ [{ HostInputs.idle with cmdValid := true, cmdData := 0x4400000000000000#64 }],
      p.rst = false ∧ p.rspReady = false := by decide

theorem test_witness_IdleBlockHoldsItsState :
    closedState.busy = false ∧ ∀ p ∈ [HostInputs.idle, { HostInputs.idle with rspReady := true }],
      p.rst = false ∧ p.cmdValid = false := by decide

/-- A command of `LAT` 2 and one of `LAT` 1, the smallest. -/
theorem test_witness_AcceptedCommandCompletesAfterItsLatency :
    (∀ lat ∈ [[1], [0], []], ({ openState with inputs := offering 0x4400000000000000#64, latencies := lat } : State).busy
        = false ∧ openState.rspValid = false ∧
      ∀ q ∈ (offering 0x4400000000000000#64).tail.take (lat.headD 0 + 1), q.rst = false) := by decide

/-- The edge that leaves the pulses, and the edge that ends them. -/
theorem test_witness_OnlyTickPulsesAndForOneCycle :
    step (withAccepted openState 0x200015E0000003F2#64) = .next responding ∧ responding.events ≠ [] ∧
    step responding = .next (nextOf (step responding)) := ⟨rfl, by decide, rfl⟩

/-- R72's tie at 6000 between entries 2 and 3 of the ascending table: only the lower one is nearest. -/
theorem test_witness_NearestIndexIsTheLowestOfLeastDistance : IsNearest calFixture[0] 6000#16 2 := by
  unfold IsNearest
  decide

/-- The voltage of a repeated entry, 7000 at entries 3 and 4 of the second table. -/
theorem test_witness_NearestIndexMeetsARepeatedEntryFirst :
    nearestIndex calFixture[1] 7000#16 = 3 ∧ calFixture[1][4] = calFixture[1][3] ∧
    calFixture[1][4] = 7000#16 := by decide

/-- One operand for each clause: the first and the last entry; den = 0; r below 0; r above the range; r in range, on
both sides of the entry. -/
theorem test_witness_MapiInterpolatesTowardTheNeighbour :
    nearestIndex calFixture[0] 2000#16 = 0 ∧ nearestIndex calFixture[0] 46001#16 = 23 ∧
    (nearestIndex calFixture[1] 7500#16 = 3 ∧ segmentWidth calFixture[1] 3 4 = 0) ∧
    (nearestIndex calFixture[1] 31500#16 = 15 ∧ interpolate calFixture[1] noteFixture 31500#16 15 16 < 0) ∧
    (nearestIndex calFixture[1] 39600#16 = 20 ∧
      2 ^ 32 - 1 < interpolate calFixture[1] noteFixture 39600#16 20 19) ∧
    (nearestIndex calFixture[0] 2001#16 = 1 ∧ interpolate calFixture[0] noteFixture 2001#16 1 0 = 0x698169) ∧
    (nearestIndex calFixture[0] 46000#16 = 22 ∧ interpolate calFixture[0] noteFixture 46000#16 22 23 = 0x33F8000) := by
  decide

/-- The ends of the range of r, exactly 0 and exactly 2^32 - 1: the entry's own note at its voltage. -/
theorem test_witness_MapiInterpolates_range_ends :
    interpolate calFixture[0] (noteFixture.set 5 0#32) 11000#16 5 4 = 0 ∧
    interpolate calFixture[0] (noteFixture.set 5 0xFFFFFFFF#32) 11000#16 5 4 = 2 ^ 32 - 1 := by decide

theorem test_witness_MapiIsExactOnABreakpoint :
    calFixture[0][nearestIndex calFixture[0] 11000#16] = 11000#16 ∧
    (mapI calFixture[1] noteFixture 7500#16).flags.deg = true := by decide

/-- The interior entries 22 from above and 1 from below, at the midpoint and one above it. -/
theorem test_witness_MapiStaysWithinHalfASegment :
    (nearestIndex calFixture[0] 46000#16 = 22 ∧ neighbour calFixture[0] 46000#16 22 = 23 ∧
      calFixture[0][(22 : EntryIndex)].toNat < (46000#16 : Voltage).toNat ∧
      calFixture[0][(22 : EntryIndex)].toNat < calFixture[0][(23 : EntryIndex)].toNat) ∧
    (nearestIndex calFixture[0] 2001#16 = 1 ∧ neighbour calFixture[0] 2001#16 1 = 0 ∧
      (2001#16 : Voltage).toNat ≤ calFixture[0][(1 : EntryIndex)].toNat ∧
      calFixture[0][(0 : EntryIndex)].toNat < calFixture[0][(1 : EntryIndex)].toNat) := by decide

/-- Under AT 1 and DE 400 the elapsed times 0, 1, 400 and 401 stand at the ends of the three note-on clauses; under
RE 400 the times 399 and 400 at the ends of the note-off clauses; channel 1 has no timestamp. -/
theorem test_witness_EnvqAnswersPhaseAndAmplitude :
    ((openState.chan 0).onV = true ∧
      [1000#32, 1001#32, 1400#32, 1401#32].map (fun t => elapsedMs t (openState.chan 0).onT) = [0, 1, 400, 401]) ∧
    ((closedState.chan 0).onV = false ∧ (closedState.chan 0).offV = true ∧
      [2399#32, 2400#32].map (fun t => elapsedMs t (closedState.chan 0).offT) = [399, 400]) ∧
    ((closedState.chan 1).onV = false ∧ (closedState.chan 1).offV = false) ∧
    openState.active.attack = 1#16 ∧ openState.active.decay = 400#16 ∧ closedState.active.release = 400#16 := by decide

/-- AT 100, DE 200 and RE 300, and AT at its least in the reset set; the last times before and the first at each bound. -/
theorem test_witness_EnvelopeJoinsAtPhaseBoundaries :
    params.EngineReady ∧ ParamSet.activeReset.EngineReady ∧ 99 < params.attack.toNat ∧
    0 < ParamSet.activeReset.attack.toNat ∧ 199 < params.decay.toNat ∧ params.release.toNat ≤ 300 := by
  unfold ParamSet.EngineReady
  decide

theorem test_witness_AttackRisesAndReleaseFalls : 98 ≤ 99 ∧ 99 < params.attack.toNat := by decide

/-- The largest levels the statement takes. -/
theorem test_witness_AmplitudeIsClampedOnlyAboveNominal :
    params.maxLevel.toNat ≤ 1000 ∧ ({ params with sustain := 1000#16 } : ParamSet).sustain.toNat ≤ 1000 := by decide

theorem test_witness_TickClosesAnOpenGate : (openState.chan 0).gate = true ∧ (982#16 : Voltage).toNat < 983 := by decide

theorem test_witness_TickOpensAClosedGate : (closedState.chan 0).gate = false ∧ 983 ≤ (983#16 : Voltage).toNat := by decide

/-- An open gate at the threshold and a closed one just below it. -/
theorem test_witness_TickWithoutAnEdgeKeepsTheTimestamps :
    ((openState.chan 0).gate = true ↔ 983 ≤ (983#16 : Voltage).toNat) ∧
    ((closedState.chan 0).gate = true ↔ 983 ≤ (982#16 : Voltage).toNat) := by decide

/-- Both slide modes at the threshold, and a voltage just below it. -/
theorem test_witness_TickDrivesTheFrequency :
    983 ≤ (983#16 : Voltage).toNat ∧ fixture.active.slideMode = .quantized ∧
    ({ fixture with active := { params with slideMode := .interpolated } } : State).active.slideMode = .interpolated ∧
    (982#16 : Voltage).toNat < 983 := by decide

theorem test_witness_TickFrame : (1 : Channel) ≠ 0 ∧ (2 : Channel) ≠ 0 := by decide

theorem test_witness_TicksOfDifferentChannelsCommute : (0 : Channel) ≠ 2 := by decide

theorem test_witness_NoteoffClosesTheGate : (openState.chan 0).gate = true := by decide

theorem test_witness_SetpWritesOneStageField : ParamField.ml ≠ .sm ∧ ParamField.re ≠ .ml := by decide

theorem test_witness_SetpAndApplyAreIdempotent :
    (exec .apply fixture = .next (nextOf (exec .apply fixture)) ∧
      exec .apply (nextOf (exec .apply fixture)) = .next (nextOf (exec .apply (nextOf (exec .apply fixture))))) ∧
    exec (.setp .sm 1) fixture = .next (nextOf (exec (.setp .sm 1) fixture)) ∧
    exec (.setp .sm 1) (nextOf (exec (.setp .sm 1) fixture)) =
      .next (nextOf (exec (.setp .sm 1) (nextOf (exec (.setp .sm 1) fixture)))) :=
  ⟨⟨rfl, rfl⟩, rfl, rfl⟩

theorem test_witness_LoadpLoadsThePatch : (0#16 : Param).toNat ≤ 1 ∧ (1#16 : Param).toNat ≤ 1 := by decide

theorem test_witness_ParameterReadsAnswerTheField :
    fixture.active.EngineReady ∧ ParamField.att ∈ [ParamField.att, .de, .re] := by
  unfold ParamSet.EngineReady
  decide

/-- The five views of an open channel: each clause of the statement has its view. -/
theorem test_witness_RdchAnswersTheView :
    [ChannelView.status, .onTime, .offTime, .freq, .duty].map (openState.chan 0).view =
      [0xB#32, 1000#32, 0#32, 0x007C0000#32, 5853#32] := by decide

/-- Two states that agree on channel 0, on the tables and on ACTIVE and differ elsewhere. -/
theorem test_witness_CommandTouchesOnlyItsChannel :
    namedChannel (.tick 0 983#16 5#32) = some 0 ∧ (openState.setChan 1 closedChannel).chan 0 = openState.chan 0 ∧
    ({ openState.setChan 1 closedChannel with stage := params } : State).tables = openState.tables ∧
    ({ openState.setChan 1 closedChannel with stage := params } : State).active = openState.active ∧
    namedChannel .apply = none := by decide

/-- One step for each clause: TICK changes channel 0, SETP STAGE, APPLY ACTIVE, and reset a channel. -/
theorem test_witness_StateChangesOnlyByItsOwnCommand :
    (ran fixture 0x200015E000000000#64).chan 0 ≠ fixture.chan 0 ∧
    (ran fixture 0x4040000100000000#64).stage ≠ fixture.stage ∧
    (ran { fixture with stage := params } 0x4400000000000000#64).active ≠ fixture.active ∧
    (nextOf (step { openState with inputs := [{ HostInputs.idle with rst := true }] })).chan 0 ≠ openState.chan 0 := by
  decide

/-- A TICK due on each side of the threshold, in each slide mode for the open one, with `rst` low in the next cycle. -/
theorem test_witness_TickShowsOnTheOutputPorts :
    ((due 0x200003D700000064#64).Completing ∧ decode (due 0x200003D700000064#64).command = .ok (.tick 0 983 100) ∧
      fixture.active.slideMode = .quantized ∧ (ran fixture 0x200003D700000064#64).pins.rst = false) ∧
    ((due 0x200003D600000064#64).Completing ∧ decode (due 0x200003D600000064#64).command = .ok (.tick 0 982 100)) ∧
    (withAccepted { fixture with active := { params with slideMode := .interpolated } } 0x200003D700000064#64).Completing :=
  ⟨⟨⟨by decide, by decide, by decide, by decide⟩, by decide, by decide, by decide⟩,
    ⟨⟨by decide, by decide, by decide, by decide⟩, by decide⟩, by decide, by decide, by decide, by decide⟩

/-- Each status and each phase occurs. -/
theorem test_witness_ResponseWordHoldsItsFields :
    (dataResponse 0x11#6 0#32).st = .ok ∧
    [DecodeError.illegal, .badCh, .badIdx].map (fun e => (errorResponse 0#64 e).st) = [.illegal, .badCh, .badIdx] ∧
    [EnvPhase.idle, .attack, .decay, .sustain, .release].map
      (fun ph => (envResponse 0 { amp := 0#16, phase := ph }).phase) = [.idle, .attack, .decay, .sustain, .release] := by
  decide

theorem test_witness_CommandsDependOnTheEngineAlone :
    SameEngine fixture { fixture with inputs := [.idle], latencies := [5], edges := 7 } := ⟨rfl, rfl, rfl, rfl⟩

/-- A sound state with an open channel in which a TICK is due, and the state it gives. -/
theorem test_witness_EveryEdgeKeepsTheBlockSound :
    (withAccepted openState 0x200015E0000003F2#64).Sound ∧
    step (withAccepted openState 0x200015E0000003F2#64) = .next responding := by
  refine ⟨⟨?_, ?_, ?_⟩, rfl⟩
  · unfold ChannelState.Sound
    decide
  · unfold ParamSet.EngineReady
    decide
  · exact ⟨by decide, fun h => absurd h (by decide), fun h => absurd (by decide) h⟩

end Sys2Proof.Tests
end

