-- ==== Sys2Proof/Proofs/ChannelIsolation.lean ====
section
/-! PROOF. `10_state.md` R23: a command that names a channel works on that channel alone. The idea is a factorisation: such a
command is a function of its channel's state, the tables and ACTIVE, whose result is written back to that channel. -/

namespace Sys2Proof.Proofs

open Sys2Proof.Machine Sys2Proof.Laws

/-! ## Commands that name a channel -/

/-- `i` acts on channel `c` through one function `f` of that channel's state, the tables and ACTIVE: from every state, it
replaces channel `c` by what `f` answers and completes with its response and events. -/
def ActsThroughChannel (i : Instr) (c : Channel) : Prop :=
  ∃ f : ChannelState → Tables → ParamSet → TickResult, ∀ s : State,
    exec i s = .next (complete (s.setChan c (f (s.chan c) s.tables s.active).chan)
      (f (s.chan c) s.tables s.active).response (f (s.chan c) s.tables s.active).events)

@[simp] theorem setChan_chan_self (s : State) (c : Channel) : s.setChan c (s.chan c) = s := by
  simp [State.setChan, State.chan]

/-- A query, which only responds, is the case in which the channel is replaced by itself. -/
theorem actsThroughChannel_of_query {i : Instr} {c : Channel} (r : ChannelState → Tables → ParamSet → Response)
    (h : ∀ s : State, exec i s = .next (complete s (r (s.chan c) s.tables s.active) [])) : ActsThroughChannel i c :=
  ⟨fun x tb p => { chan := x, response := r x tb p, events := [] }, fun s => by rw [setChan_chan_self, h]⟩

theorem tick_actsThroughChannel (c : Channel) (v : Voltage) (t : Time) : ActsThroughChannel (.tick c v t) c :=
  ⟨fun x tb p => tickResult tb.cal[c] tb.note p c x v t, fun _ => rfl⟩

/-- R23: TICK writes its channel; the five queries that name a channel differ only in the response they compute. -/
theorem actsThroughChannel_of_namedChannel {i : Instr} {c : Channel} (h : namedChannel i = some c) :
    ActsThroughChannel i c := by
  cases i with
  | tick _ v t => cases h; exact tick_actsThroughChannel c v t
  | mapq _ v =>
    cases h
    exact actsThroughChannel_of_query (fun _ tb _ => pitchResponse 0x01#6 c (mapQ tb.cal[c] tb.note v)) fun _ => rfl
  | mapi _ v =>
    cases h
    exact actsThroughChannel_of_query (fun _ tb _ => pitchResponse 0x02#6 c (mapI tb.cal[c] tb.note v)) fun _ => rfl
  | envq _ t =>
    cases h
    exact actsThroughChannel_of_query (fun x _ p => envResponse c (envLevel x t p)) fun _ => rfl
  | rdch _ view =>
    cases h
    exact actsThroughChannel_of_query
      (fun x _ _ => { op := 0x20#6, ch := channelBits c, data := x.view view }) fun _ => rfl
  | rdcal _ e =>
    cases h
    exact actsThroughChannel_of_query
      (fun _ tb _ => { op := 0x21#6, ch := channelBits c, idx := entryBits e, data := tb.cal[c][e].setWidth 32 })
      fun _ => rfl
  | setp _ _ | apply | rdps _ | rdpa _ | rdnote _ => cases h

/-! ## Commands that name no channel -/

/-- SETP and APPLY write a parameter set and the reads write nothing, so every channel stays. -/
theorem exec_channels_of_no_namedChannel {i : Instr} (h : namedChannel i = none) (s : State) :
    ∃ t, exec i s = .next t ∧ t.channels = s.channels := by
  cases i with
  | setp _ _ | apply | rdps _ | rdpa _ | rdnote _ => exact ⟨_, rfl, rfl⟩
  | mapq _ _ | mapi _ _ | envq _ _ | tick _ _ _ | rdch _ _ | rdcal _ _ => cases h

/-- Settles O46: the frame and the agreement of the two runs both follow from the factorisation of the command through its
channel. -/
theorem commandTouchesOnlyItsChannel : Obligations.CommandTouchesOnlyItsChannel := by
  refine ⟨fun i c s s' hi hchan htables hactive => ?_, fun i s hi => exec_channels_of_no_namedChannel hi s⟩
  obtain ⟨f, hf⟩ := actsThroughChannel_of_namedChannel hi
  have hf' := hf s'
  rw [hchan, htables, hactive] at hf'
  refine ⟨_, _, hf s, hf', fun d hd => ?_, rfl, rfl, rfl, ?_, rfl, rfl⟩
  · rw [complete_chan, setChan_chan_ne s _ hd]
  · simp only [complete_chan, setChan_chan_same]

end Sys2Proof.Proofs
end

