-- ==== Sys2Proof/Proofs/Bridge.lean ====
section
/-! PROOF. `20_memory.md` R40: the bridge from a narrower bus. The idea is one equivalence, that the bytes that make a word
are exactly the bytes of that word; each direction goes through the two 32-bit halves. -/

namespace Sys2Proof.Proofs

/-! ## Half-words of a word -/

theorem extractLsb'_low_wordOfHalves (low high : BitVec 32) {start len : Nat} (h : start + len ≤ 32) :
    (wordOfHalves low high).extractLsb' start len = low.extractLsb' start len :=
  BitVec.extractLsb'_append_eq_of_add_le h

theorem extractLsb'_high_wordOfHalves (low high : BitVec 32) {start len : Nat} (h : 32 ≤ start) :
    (wordOfHalves low high).extractLsb' start len = high.extractLsb' (start - 32) len :=
  BitVec.extractLsb'_append_eq_of_le h

/-- A word is its low half and its high half. -/
theorem wordOfHalves_extractLsb' (w : CommandWord) :
    wordOfHalves (w.extractLsb' 0 32) (w.extractLsb' 32 32) = w :=
  BitVec.extractLsb'_append_extractLsb' (w := 32) (len := 32)

/-! ## Bytes of a half-word -/

/-- Above its lowest byte, a string of bytes is the string of the other bytes. -/
theorem extractLsb'_append_byte {n : Nat} (high : BitVec n) (b : Byte) (start : Nat) :
    (high ++ b).extractLsb' (start + 8) 8 = high.extractLsb' start 8 :=
  BitVec.extractLsb'_append_eq_of_le (Nat.le_add_left 8 start)

theorem extractLsb'_halfOfBytes (b0 b1 b2 b3 : Byte) :
    (halfOfBytes b0 b1 b2 b3).extractLsb' 0 8 = b0 ∧ (halfOfBytes b0 b1 b2 b3).extractLsb' 8 8 = b1 ∧
    (halfOfBytes b0 b1 b2 b3).extractLsb' 16 8 = b2 ∧ (halfOfBytes b0 b1 b2 b3).extractLsb' 24 8 = b3 := by
  refine ⟨BitVec.extractLsb'_append_eq_right, ?_, ?_, ?_⟩
  · exact (extractLsb'_append_byte _ b0 0).trans BitVec.extractLsb'_append_eq_right
  · exact (extractLsb'_append_byte _ b0 8).trans
      ((extractLsb'_append_byte _ b1 0).trans BitVec.extractLsb'_append_eq_right)
  · exact (extractLsb'_append_byte _ b0 16).trans
      ((extractLsb'_append_byte _ b1 8).trans BitVec.extractLsb'_append_eq_left)

/-- Four bytes in a row of a word are the half that starts with the first of them. -/
theorem halfOfBytes_extractLsb' (w : CommandWord) (start : Nat) :
    halfOfBytes (w.extractLsb' start 8) (w.extractLsb' (start + 8) 8) (w.extractLsb' (start + 16) 8)
      (w.extractLsb' (start + 24) 8) = w.extractLsb' start 32 := by
  unfold halfOfBytes
  rw [BitVec.extractLsb'_append_extractLsb'_eq_extractLsb' (show start + 24 = start + 16 + 8 from rfl),
    BitVec.extractLsb'_append_extractLsb'_eq_extractLsb' (show start + 16 = start + 8 + 8 from rfl),
    BitVec.extractLsb'_append_extractLsb'_eq_extractLsb' rfl]

/-! ## Bytes of a word -/

theorem wordOfBytes_bytesOfWord (w : CommandWord) : wordOfBytes (bytesOfWord w) = some w := by
  have hlow := halfOfBytes_extractLsb' w 0
  have hhigh := halfOfBytes_extractLsb' w 32
  calc wordOfBytes (bytesOfWord w)
      = some (wordOfHalves (w.extractLsb' 0 32) (w.extractLsb' 32 32)) := by rw [← hlow, ← hhigh]; rfl
    _ = some w := by rw [wordOfHalves_extractLsb']

theorem bytesOfWord_wordOfHalves (b0 b1 b2 b3 b4 b5 b6 b7 : Byte) :
    bytesOfWord (wordOfHalves (halfOfBytes b0 b1 b2 b3) (halfOfBytes b4 b5 b6 b7)) =
      [b0, b1, b2, b3, b4, b5, b6, b7] := by
  simp [bytesOfWord, extractLsb'_low_wordOfHalves, extractLsb'_high_wordOfHalves, extractLsb'_halfOfBytes]

/-- The bridge answers with a word exactly when it has carried that word's bytes. -/
theorem wordOfBytes_eq_some_iff (bs : List Byte) (w : CommandWord) : wordOfBytes bs = some w ↔ bs = bytesOfWord w := by
  constructor
  · intro h
    unfold wordOfBytes at h
    split at h
    · cases h
      exact (bytesOfWord_wordOfHalves ..).symm
    · cases h
  · rintro rfl
    exact wordOfBytes_bytesOfWord w

theorem bytesOfWord_getElem? (w : CommandWord) {k : Nat} (hk : k < 8) :
    (bytesOfWord w)[k]? = some (w.extractLsb' (8 * k) 8) := by
  interval_cases k <;> rfl

/-- Settles O7: a word comes back from its bytes, and no other byte string gives it. -/
theorem bridgeCarriesTheWord : Obligations.BridgeCarriesTheWord := by
  refine ⟨wordOfBytes_bytesOfWord, fun bs w h => ?_⟩
  obtain rfl := (wordOfBytes_eq_some_iff bs w).1 h
  exact ⟨rfl, fun k hk => bytesOfWord_getElem? w hk⟩

end Sys2Proof.Proofs
end

