-- ==== Sys2Proof/Proofs/Handshake.lean ====
section
/-! PROOF. The handshake of `20_memory.md`: acceptance (R49) and the response held until it is taken (R52). The proofs go
through one equation per branch of the clock edge. -/

namespace Sys2Proof.Proofs

open Sys2Proof.Machine Sys2Proof.Laws

/-! ## The edge, by what the block is doing -/

theorem step_of_reset {s : State} (hrst : s.pins.rst = true) : step s = .next (resetEdge (beginEdge s)) := by
  simp [step, clockEdge, hrst]

theorem step_of_ready {s : State} (hrst : s.pins.rst = false) (hbusy : s.busy = false) :
    step s = .next (readyEdge s.pins (beginEdge s)) := by
  simp [step, clockEdge, hrst, hbusy]

theorem step_of_executing {s : State} (hrst : s.pins.rst = false) (hbusy : s.busy = true) (hvalid : s.rspValid = false) :
    step s = executingEdge (beginEdge s) := by
  simp [step, clockEdge, hrst, hbusy, hvalid]

theorem step_of_responding {s : State} (hrst : s.pins.rst = false) (hbusy : s.busy = true) (hvalid : s.rspValid = true) :
    step s = .next (respondingEdge s.pins (beginEdge s)) := by
  simp [step, clockEdge, hrst, hbusy, hvalid]

/-! ## The ports of the handshake -/

theorem cmdReadyPort_iff (s : State) : cmdReadyPort s = true ↔ s.pins.rst = false ∧ s.busy = false := by
  simp [cmdReadyPort]

theorem rspDataPort_of_offered {s : State} (hrst : s.pins.rst = false) (hvalid : s.rspValid = true) :
    rspDataPort s = s.rspBuf := by
  simp [rspDataPort, rspValidPort, hrst, hvalid]

/-! ## Acceptance -/

/-- R49: two states that differ only in the `cmd_data` of the present cycle take the same step, unless the edge accepts a
command: no other branch of the edge reads `cmd_data`. -/
theorem step_cmdData_irrelevant {s s' : State} {w : CommandWord} (hpins : s'.pins = { s.pins with cmdData := w })
    (hbegin : beginEdge s' = beginEdge s) (hnot : ¬(s.pins.cmdValid = true ∧ cmdReadyPort s = true)) :
    step s' = step s := by
  have hrst' : s'.pins.rst = s.pins.rst := by rw [hpins]
  have hbusy' : s'.busy = s.busy := by simpa using congrArg State.busy hbegin
  have hrsp' : s'.rspValid = s.rspValid := by simpa using congrArg State.rspValid hbegin
  cases hrst : s.pins.rst with
  | true => rw [step_of_reset (hrst'.trans hrst), step_of_reset hrst, hbegin]
  | false =>
    cases hbusy : s.busy with
    | false =>
      have hvalid : s.pins.cmdValid = false :=
        Bool.eq_false_iff.2 fun hv => hnot ⟨hv, (cmdReadyPort_iff s).2 ⟨hrst, hbusy⟩⟩
      rw [step_of_ready (hrst'.trans hrst) (hbusy'.trans hbusy), step_of_ready hrst hbusy, hbegin, hpins]
      simp [readyEdge, hvalid]
    | true =>
      cases hrsp : s.rspValid with
      | false =>
        rw [step_of_executing (hrst'.trans hrst) (hbusy'.trans hbusy) (hrsp'.trans hrsp),
          step_of_executing hrst hbusy hrsp, hbegin]
      | true =>
        rw [step_of_responding (hrst'.trans hrst) (hbusy'.trans hbusy) (hrsp'.trans hrsp),
          step_of_responding hrst hbusy hrsp, hbegin, hpins]
        rfl

/-- R49: the edge at which a ready block is offered a word. -/
theorem step_of_acceptance {s : State} (hready : cmdReadyPort s = true) (hvalid : s.pins.cmdValid = true) :
    step s = .next (acceptCommand (beginEdge s) s.pins.cmdData) := by
  obtain ⟨hrst, hbusy⟩ := (cmdReadyPort_iff s).1 hready
  rw [step_of_ready hrst hbusy, readyEdge, if_pos hvalid]

/-- Settles O14: at an edge with `cmd_ready = 1` an offered word is sampled; at every other edge `cmd_data` is not read. -/
theorem acceptanceSamplesTheWord : Obligations.AcceptanceSamplesTheWord := by
  intro s p ps hin
  have hpins : s.pins = p := by simp [State.pins, hin]
  subst hpins
  refine ⟨cmdReadyPort_iff s, fun hvalid hready => ?_, fun hnot w => ?_⟩
  · exact ⟨_, step_of_acceptance hready hvalid, rfl, rfl, ⟨rfl, rfl, rfl, rfl⟩, rfl, rfl, rfl⟩
  · exact step_cmdData_irrelevant rfl (by simp [beginEdge, hin]) hnot

/-! ## The response -/

/-- Settles O15: the two cases are the response taken and the response held. -/
theorem responseIsHeldUntilTaken : Obligations.ResponseIsHeldUntilTaken := by
  intro s hrst hbusy hvalid
  refine ⟨rspDataPort_of_offered hrst hvalid, _, step_of_responding hrst hbusy hvalid, ?_⟩
  obtain ⟨hready, htaken⟩ | ⟨hready, hheld⟩ := respondingEdge_cases s.pins (beginEdge s)
  · rw [htaken, hready]
    exact ⟨⟨rfl, rfl, rfl, rfl⟩, rfl, rfl, rfl, fun _ hrst' => (cmdReadyPort_iff _).2 ⟨hrst', rfl⟩⟩
  · rw [hheld, hready]
    exact ⟨⟨rfl, rfl, rfl, rfl⟩, rfl, hvalid, hbusy, nofun⟩

end Sys2Proof.Proofs
end

