-- ==== Sys2Proof/Proofs/DecodeErrors.lean ====
section
/-! PROOF. Which error a word raises (`30_encoding.md` R62, R63, R67) and what an erroneous word does (R66, R117). The
idea is to say the decoder's checks and their order once, for every opcode, in terms of the field-use table of R58. -/

namespace Sys2Proof.Proofs

open Sys2Proof.Machine Sys2Proof.Laws

/-! ## The field-use table of R58 -/

/-- The operand fields that a command uses, a row of R58's table. -/
structure FieldUse where
  ch : Bool
  sel : Bool
  idx : Bool
  v : Bool
  t : Bool

/-- The table of R58. -/
@[simp] def fieldUse : Opcode → FieldUse
  | .mapq | .mapi => { ch := true, sel := false, idx := false, v := true, t := false }
  | .envq => { ch := true, sel := false, idx := false, v := false, t := true }
  | .tick => { ch := true, sel := false, idx := false, v := true, t := true }
  | .setp => { ch := false, sel := true, idx := false, v := true, t := false }
  | .apply => { ch := false, sel := false, idx := false, v := false, t := false }
  | .rdps | .rdpa => { ch := false, sel := true, idx := false, v := false, t := false }
  | .rdch => { ch := true, sel := true, idx := false, v := false, t := false }
  | .rdcal => { ch := true, sel := false, idx := true, v := false, t := false }
  | .rdnote => { ch := false, sel := false, idx := true, v := false, t := false }

/-- The bits that one field adds to the zero mask: none of a used field, all of an unused one. -/
def unusedMask (used : Bool) (n : Nat) : BitVec n := if used then 0#n else BitVec.allOnes n

theorem and_unusedMask_eq_zero_iff {n : Nat} (x : BitVec n) (used : Bool) :
    x &&& unusedMask used n = 0#n ↔ (used = false → x = 0#n) := by
  cases used with
  | true => simp [unusedMask]
  | false => simp [unusedMask]

/-- The mask column of R59 is the table of R58, read field by field. -/
theorem zeroMask_eq_packCommand (o : Opcode) :
    zeroMask o = packCommand 0#6 (unusedMask (fieldUse o).ch 2) (unusedMask (fieldUse o).sel 3)
      (unusedMask (fieldUse o).idx 5) (unusedMask (fieldUse o).v 16) (unusedMask (fieldUse o).t 32) := by
  cases o <;> decide

/-- R62 (b): a field that R58 marks 0 for this opcode is nonzero. -/
def HasNonzeroUnusedField (o : Opcode) (w : CommandWord) : Prop :=
  ((fieldUse o).ch = false ∧ chField w ≠ 0) ∨ ((fieldUse o).sel = false ∧ selField w ≠ 0) ∨
  ((fieldUse o).idx = false ∧ idxField w ≠ 0) ∨ ((fieldUse o).v = false ∧ vField w ≠ 0) ∨
  ((fieldUse o).t = false ∧ tField w ≠ 0)

theorem and_zeroMask_eq_zero_iff (o : Opcode) (w : CommandWord) :
    w &&& zeroMask o = 0#64 ↔ ¬HasNonzeroUnusedField o w := by
  rw [zeroMask_eq_packCommand]
  conv_lhs => rw [← packCommand_fields w, packCommand_and, packCommand_eq_zero]
  simp only [and_unusedMask_eq_zero_iff, BitVec.and_zero, true_and, HasNonzeroUnusedField]
  tauto

/-! ## The checks of the decoder, in their order -/

/-- The answer of R67's checks made in their order: ILLEGAL first, then BAD_CH, then BAD_IDX, else a command (R119). -/
inductive ChecksInOrder (illegal noChannel noEntry : Prop) : Except DecodeError Instr → Prop where
  | illegal (h : illegal) : ChecksInOrder illegal noChannel noEntry (.error .illegal)
  | badCh (hlegal : ¬illegal) (h : noChannel) : ChecksInOrder illegal noChannel noEntry (.error .badCh)
  | badIdx (hlegal : ¬illegal) (hch : ¬noChannel) (h : noEntry) :
      ChecksInOrder illegal noChannel noEntry (.error .badIdx)
  | ok (i : Instr) (hlegal : ¬illegal) (hch : ¬noChannel) (hidx : ¬noEntry) :
      ChecksInOrder illegal noChannel noEntry (.ok i)

namespace ChecksInOrder

variable {P Q R : Prop} {r : Except DecodeError Instr}

theorem eq_illegal_iff (h : ChecksInOrder P Q R r) : r = .error .illegal ↔ P := by
  cases h <;> simp [*]

theorem eq_badCh_iff (h : ChecksInOrder P Q R r) : r = .error .badCh ↔ r ≠ .error .illegal ∧ Q := by
  cases h <;> simp [*]

theorem eq_badIdx_iff (h : ChecksInOrder P Q R r) :
    r = .error .badIdx ↔ r ≠ .error .illegal ∧ r ≠ .error .badCh ∧ R := by
  cases h <;> simp [*]

end ChecksInOrder

/-! ## The operands -/

theorem channelBits_ne_three : ∀ c : Channel, channelBits c ≠ 3 := by decide

theorem entryBits_toNat_lt : ∀ i : EntryIndex, (entryBits i).toNat < 24 := by decide

theorem channelOperand_cases (w : CommandWord) :
    (channelOperand w = .error .badCh ∧ chField w = 3) ∨ ∃ c, channelOperand w = .ok c ∧ chField w ≠ 3 := by
  unfold channelOperand
  obtain ⟨c, hc, hbits⟩ | ⟨hnone, h3⟩ := channelOfBits_cases (chField w)
  · rw [hc, ← hbits]
    exact .inr ⟨c, rfl, channelBits_ne_three c⟩
  · rw [hnone]
    exact .inl ⟨rfl, h3⟩

theorem entryOperand_cases (w : CommandWord) :
    (entryOperand w = .error .badIdx ∧ 24 ≤ (idxField w).toNat) ∨
      ∃ i, entryOperand w = .ok i ∧ ¬24 ≤ (idxField w).toNat := by
  unfold entryOperand
  obtain ⟨i, hi, hbits⟩ | ⟨hnone, h24⟩ := entryOfBits_cases (idxField w)
  · rw [hi, ← hbits]
    exact .inr ⟨i, rfl, Nat.not_le.2 (entryBits_toNat_lt i)⟩
  · rw [hnone]
    exact .inl ⟨rfl, h24⟩

theorem fieldOperand_cases (w : CommandWord) :
    (fieldOperand w = .error .illegal ∧ selField w = 7) ∨
      ∃ f, fieldOperand w = .ok f ∧ paramFieldBits f = selField w ∧ selField w ≠ 7 := by
  unfold fieldOperand
  obtain ⟨f, hf, hbits⟩ | ⟨hnone, h7⟩ := paramFieldOfBits_cases (selField w)
  · rw [hf, ← hbits]
    exact .inr ⟨f, rfl, rfl, by cases f <;> decide⟩
  · rw [hnone]
    exact .inl ⟨rfl, h7⟩

theorem viewOperand_cases (w : CommandWord) :
    (viewOperand w = .error .illegal ∧ 5 ≤ (selField w).toNat) ∨
      ∃ view, viewOperand w = .ok view ∧ ¬5 ≤ (selField w).toNat := by
  unfold viewOperand
  obtain ⟨view, hview, hbits⟩ | ⟨hnone, h5⟩ := channelViewOfBits_cases (selField w)
  · rw [hview, ← hbits]
    exact .inr ⟨view, rfl, by cases view <;> decide⟩
  · rw [hnone]
    exact .inl ⟨rfl, h5⟩

/-- R62 (e) on the bits of the word: the value check of SETP fails only for the field `sm` and a value above 1. -/
theorem setp_wellFormed_iff (f : ParamField) (v : Param) :
    (Instr.setp f v).wellFormed = true ↔ ¬(paramFieldBits f = 2 ∧ 1 < v.toNat) := by
  cases f <;> simp [Instr.wellFormed, paramFieldBits]

/-! ## The operand checks of each command -/

/-- R62 (c) to (e): the operand of this opcode that has no meaning. -/
@[simp] def HasIllegalOperand : Opcode → CommandWord → Prop
  | .setp, w => selField w = 7 ∨ (selField w = 2 ∧ 1 < (vField w).toNat)
  | .rdps, w | .rdpa, w => selField w = 7
  | .rdch, w => 5 ≤ (selField w).toNat
  | .mapq, _ | .mapi, _ | .envq, _ | .tick, _ | .apply, _ | .rdcal, _ | .rdnote, _ => False

/-- R63: the opcode uses CH, and CH is 3. -/
@[simp] def NamesNoChannel (o : Opcode) (w : CommandWord) : Prop := (fieldUse o).ch = true ∧ chField w = 3

/-- R63: the opcode uses IDX, and IDX is past the last entry. -/
@[simp] def NamesNoEntry (o : Opcode) (w : CommandWord) : Prop := (fieldUse o).idx = true ∧ 24 ≤ (idxField w).toNat

/-- The operand checks of a command whose only operand with a check is CH. -/
theorem channelOperand_map_checks (w : CommandWord) (mk : Channel → Instr) :
    ChecksInOrder False (chField w = 3) False ((channelOperand w).map mk) := by
  obtain ⟨herr, h3⟩ | ⟨c, hok, h3⟩ := channelOperand_cases w
  · rw [herr]
    exact .badCh id h3
  · rw [hok]
    exact .ok _ id h3 id

/-- The operand checks of RDPS and RDPA. -/
theorem fieldOperand_map_checks (w : CommandWord) (mk : ParamField → Instr) :
    ChecksInOrder (selField w = 7) False False ((fieldOperand w).map mk) := by
  obtain ⟨herr, h7⟩ | ⟨f, hok, -, h7⟩ := fieldOperand_cases w
  · rw [herr]
    exact .illegal h7
  · rw [hok]
    exact .ok _ h7 id id

/-- The operand checks of RDNOTE, and of RDCAL behind its channel check. -/
theorem entryOperand_map_checks (w : CommandWord) (mk : EntryIndex → Instr) :
    ChecksInOrder False False (24 ≤ (idxField w).toNat) ((entryOperand w).map mk) := by
  obtain ⟨herr, h24⟩ | ⟨i, hok, h24⟩ := entryOperand_cases w
  · rw [herr]
    exact .badIdx id id h24
  · rw [hok]
    exact .ok _ id id h24

theorem setpOperands_checks (w : CommandWord) :
    ChecksInOrder (selField w = 7 ∨ (selField w = 2 ∧ 1 < (vField w).toNat)) False False (setpOperands w) := by
  unfold setpOperands
  obtain ⟨herr, h7⟩ | ⟨f, hok, hbits, h7⟩ := fieldOperand_cases w
  · rw [herr]
    exact .illegal (.inl h7)
  · have hwf := setp_wellFormed_iff f (vField w)
    rw [hbits] at hwf
    simp only [hok]
    split
    · next h => exact .ok _ (not_or.2 ⟨h7, hwf.1 h⟩) id id
    · next h => exact .illegal (.inr (by_contra fun hlegal => h (hwf.2 hlegal)))

theorem rdchOperands_checks (w : CommandWord) :
    ChecksInOrder (5 ≤ (selField w).toNat) (chField w = 3) False (rdchOperands w) := by
  unfold rdchOperands
  obtain ⟨herr, h5⟩ | ⟨view, hok, h5⟩ := viewOperand_cases w
  · rw [herr]
    exact .illegal h5
  · rw [hok, eq_false h5]
    exact channelOperand_map_checks w _

theorem rdcalOperands_checks (w : CommandWord) :
    ChecksInOrder False (chField w = 3) (24 ≤ (idxField w).toNat) (rdcalOperands w) := by
  unfold rdcalOperands
  obtain ⟨herr, h3⟩ | ⟨c, hok, h3⟩ := channelOperand_cases w
  · rw [herr]
    exact .badCh id h3
  · rw [hok, eq_false h3]
    exact entryOperand_map_checks w _

/-- R67 behind the opcode and the zero mask: the checks that an opcode's operands undergo. -/
theorem decodeOperands_checks (o : Opcode) (w : CommandWord) :
    ChecksInOrder (HasIllegalOperand o w) (NamesNoChannel o w) (NamesNoEntry o w) (decodeOperands o w) := by
  cases o with
  | mapq | mapi | envq | tick => simpa [decodeOperands] using channelOperand_map_checks w _
  | setp => simpa [decodeOperands] using setpOperands_checks w
  | apply => simpa [decodeOperands] using ChecksInOrder.ok .apply id id id
  | rdps | rdpa => simpa [decodeOperands] using fieldOperand_map_checks w _
  | rdch => simpa [decodeOperands] using rdchOperands_checks w
  | rdcal => simpa [decodeOperands] using rdcalOperands_checks w
  | rdnote => simpa [decodeOperands] using entryOperand_map_checks w _

/-! ## The whole decoder -/

theorem decode_of_reserved {w : CommandWord} (h : opcodeOfBits (opField w) = none) : decode w = .error .illegal := by
  simp only [decode, h]

/-- R67 for a word whose OP is not reserved: the zero mask is the first of the checks that answer ILLEGAL. -/
theorem decode_checks {w : CommandWord} {o : Opcode} (h : opcodeOfBits (opField w) = some o) :
    ChecksInOrder (HasNonzeroUnusedField o w ∨ HasIllegalOperand o w) (NamesNoChannel o w) (NamesNoEntry o w)
      (decode w) := by
  simp only [decode, h]
  split
  · next hzero => simpa [(and_zeroMask_eq_zero_iff o w).1 hzero] using decodeOperands_checks o w
  · next hzero => exact .illegal (.inl (by_contra fun hused => hzero ((and_zeroMask_eq_zero_iff o w).2 hused)))

/-! ## ILLEGAL -/

/-- R59: the reserved values of OP are all but the eleven of the opcode map. -/
theorem opcodeOfBits_eq_none_iff (op : BitVec 6) :
    opcodeOfBits op = none ↔
      op ∉ [0x01#6, 0x02#6, 0x04#6, 0x08#6, 0x10#6, 0x11#6, 0x12#6, 0x13#6, 0x20#6, 0x21#6, 0x22#6] := by
  revert op
  decide

/-- Settles O4: a reserved OP is cause (a), and for each of the eleven others the checks that answer ILLEGAL are the
row of that OP in causes (b) to (e). -/
theorem illegalExactlyByTheFiveCauses : Obligations.IllegalExactlyByTheFiveCauses := by
  refine ⟨rfl, fun w => ?_⟩
  cases hop : opcodeOfBits (opField w) with
  | none => exact iff_of_true (decode_of_reserved hop) (.inl ((opcodeOfBits_eq_none_iff _).1 hop))
  | some o =>
    rw [(decode_checks hop).eq_illegal_iff, ← opcodeBits_of_eq_some hop]
    cases o <;> simp [HasNonzeroUnusedField, opcodeBits]

/-! ## BAD_CH and BAD_IDX -/

/-- R58: the opcodes that use CH. -/
theorem fieldUse_ch_iff (o : Opcode) :
    (fieldUse o).ch = true ↔ opcodeBits o ∈ [0x01#6, 0x02#6, 0x04#6, 0x08#6, 0x20#6, 0x21#6] := by
  cases o <;> decide

/-- R58: the opcodes that use IDX. -/
theorem fieldUse_idx_iff (o : Opcode) : (fieldUse o).idx = true ↔ opcodeBits o ∈ [0x21#6, 0x22#6] := by
  cases o <;> decide

/-- Settles O5: the second and the third check, with the opcodes that use CH and IDX read off R58's table. -/
theorem outOfRangeExactly : Obligations.OutOfRangeExactly := by
  refine ⟨rfl, rfl, fun w => ?_⟩
  cases hop : opcodeOfBits (opField w) with
  | none => simp [decode_of_reserved hop]
  | some o =>
    have hchecks := decode_checks hop
    rw [← opcodeBits_of_eq_some hop, ← fieldUse_ch_iff, ← fieldUse_idx_iff]
    exact ⟨hchecks.eq_badCh_iff, hchecks.eq_badIdx_iff⟩

end Sys2Proof.Proofs
end

