-- ==== Sys2Proof/Proofs/ErroneousCommand.lean ====
section
/-! PROOF. What an erroneous command does (`30_encoding.md` R66, `60_exceptions.md` R117): the completing edge answers
the error response and leaves the engine as it was. -/

namespace Sys2Proof.Proofs

open Sys2Proof.Machine Sys2Proof.Laws

/-! ## The fields of a response word that an error response sets -/

theorem rspOp_word (r : Response) : rspOp r.word = r.op := by
  ext i hi
  simp only [rspOp, BitVec.getElem_extractLsb', word_getLsbD]
  grind

theorem rspCh_word (r : Response) : rspCh r.word = r.ch := by
  ext i hi
  simp only [rspCh, BitVec.getElem_extractLsb', word_getLsbD]
  grind

theorem rspSt_word (r : Response) : rspSt r.word = statusCode r.st := by
  ext i hi
  simp only [rspSt, BitVec.getElem_extractLsb', word_getLsbD]
  grind

/-- R66: below its status an error response is 0. -/
theorem errorResponse_word_low (w : CommandWord) (e : DecodeError) :
    (errorResponse w e).word.extractLsb' 0 54 = 0#54 := by
  ext i hi
  simp only [BitVec.getElem_extractLsb', word_getLsbD, errorResponse, noMapFlags, phaseCode]
  grind

/-! ## The edge -/

/-- R51, R54: the edge at which the latency of the accepted word has passed runs it. -/
theorem step_of_completing {s : State} (h : s.Completing) : step s = runCommand s.command (beginEdge s) := by
  obtain ⟨hrst, hbusy, hvalid, hwait⟩ := h
  rw [step_of_executing hrst hbusy hvalid, executingEdge, beginEdge_wait, hwait, beginEdge_command]

theorem runCommand_of_error {w : CommandWord} {e : DecodeError} (h : decode w = .error e) (s : State) :
    runCommand w s = .next (raiseError s w e) := by
  simp only [runCommand, h]

/-- Settles O11: the completing edge of an erroneous word is `raiseError`, whose frame and response word are known. -/
theorem erroneousCommandHasNoEffect : Obligations.ErroneousCommandHasNoEffect := by
  intro s e hcompleting herror
  have hstep := (step_of_completing hcompleting).trans (runCommand_of_error herror _)
  obtain ⟨-, hbusy, -, -⟩ := hcompleting
  have hst : rspSt (errorResponse s.command e).word = statusCode (statusOfError e) := rspSt_word _
  refine ⟨_, hstep, ⟨rfl, rfl, rfl, rfl⟩, rfl, rfl, hbusy, pulses_of_no_events rfl, rspOp_word _, rspCh_word _,
    ?illegal, ?badCh, ?badIdx, errorResponse_word_low _ _⟩
  all_goals
    rintro rfl
    exact hst

end Sys2Proof.Proofs
end

