-- ==== Sys2Proof/Proofs/ResponseFields.lean ====
section
/-! PROOF. Each field of a response word reads back what the response holds (`30_encoding.md` R65). The fields OP, CH and
ST have their lemmas beside the error response. -/

namespace Sys2Proof.Proofs

open Sys2Proof.Machine Sys2Proof.Laws

/-- A range of a response word is the field whose bits stand there. -/
theorem extractLsb'_word_eq {r : Response} {start len : Nat} {x : BitVec len}
    (h : ∀ i < len, r.word.getLsbD (start + i) = x.getLsbD i) : r.word.extractLsb' start len = x :=
  BitVec.eq_of_getLsbD_eq fun i hi => by rw [BitVec.getLsbD_extractLsb', h i hi, decide_eq_true hi, Bool.true_and]

theorem rspPhase_word (r : Response) : rspPhase r.word = phaseCode r.phase :=
  extractLsb'_word_eq fun i hi => by grind [word_getLsbD]

theorem rspIdx_word (r : Response) : rspIdx r.word = r.idx :=
  extractLsb'_word_eq fun i hi => by grind [word_getLsbD]

theorem rspZero_word (r : Response) : rspZero r.word = 0#8 :=
  extractLsb'_word_eq fun i hi => by grind [word_getLsbD]

theorem rspDataField_word (r : Response) : rspDataField r.word = r.data :=
  extractLsb'_word_eq fun i hi => by grind [word_getLsbD]

/-- R65: the word of a response holds its fields; a flag is the bit at its position. -/
theorem hasFields_word (r : Response) : HasFields r.word r :=
  ⟨rspOp_word r, rspCh_word r, rspSt_word r, rspPhase_word r, word_getLsbD r 50, word_getLsbD r 49, word_getLsbD r 48,
    word_getLsbD r 47, word_getLsbD r 46, word_getLsbD r 45, rspIdx_word r, rspZero_word r, rspDataField_word r⟩

end Sys2Proof.Proofs
end

