-- ==== Sys2Proof/Proofs/PitchMapper.lean ====
section
/-! PROOF. The pitch mapper (`40_pitch_mapper.md` R72, R75 to R77). The scan of R72 visits the entries in ascending order
and replaces its best entry only by a strictly nearer one, so its answer is the lowest of the nearest entries. MAPI follows
from one equation per branch of the map at that entry. -/

namespace Sys2Proof.Proofs

open Sys2Proof.Machine Sys2Proof.Laws

/-! ## The nearest index -/

/-- Along an ascending scan every entry before the answer lies strictly farther away. -/
theorem calDistance_nearestScan_lt (cal : CalTable) (v : Voltage) {l : List EntryIndex} {b : EntryIndex}
    (hasc : (b :: l).Pairwise (· < ·)) :
    ∀ j ∈ b :: l, j < nearestScan cal v l b → calDistance cal v (nearestScan cal v l b) < calDistance cal v j := by
  induction l generalizing b with
  | nil =>
    intro j hj hlt
    exact absurd hlt (List.mem_singleton.1 hj ▸ lt_irrefl j)
  | cons i rest ih =>
    obtain ⟨hb, hrest⟩ := List.pairwise_cons.1 hasc
    rw [nearestScan]
    split
    · next hnearer =>
      intro j hj hlt
      rcases List.mem_cons.1 hj with rfl | hj
      · exact (nearestScan_le cal v rest i).1.trans_lt hnearer
      · exact ih hrest j hj hlt
    · next hfarther =>
      have hskip := ih (hasc.sublist ((List.sublist_cons_self i rest).cons_cons b))
      have hbi : b < i := hb i List.mem_cons_self
      intro j hj hlt
      rcases List.mem_cons.1 hj with rfl | hj
      · exact hskip _ List.mem_cons_self hlt
      rcases List.mem_cons.1 hj with rfl | hj
      · exact (hskip b List.mem_cons_self (hbi.trans hlt)).trans_le (not_lt.1 hfarther)
      · exact hskip j (List.mem_cons_of_mem _ hj) hlt

theorem zero_cons_tail_finRange : 0 :: (List.finRange 24).tail = List.finRange 24 := rfl

/-- R72: the scan of all entries finds the nearest index. -/
theorem isNearest_nearestIndex (cal : CalTable) (v : Voltage) : IsNearest cal v (nearestIndex cal v) := by
  have hmem (j : EntryIndex) : j ∈ 0 :: (List.finRange 24).tail := zero_cons_tail_finRange ▸ List.mem_finRange j
  have hasc : (0 :: (List.finRange 24).tail).Pairwise (· < ·) := zero_cons_tail_finRange ▸ List.pairwise_lt_finRange 24
  obtain ⟨hfirst, hothers⟩ := nearestScan_le cal v (List.finRange 24).tail 0
  refine ⟨fun j => ?_, fun j => calDistance_nearestScan_lt cal v hasc j (hmem j)⟩
  rcases List.mem_cons.1 (hmem j) with rfl | hj
  · exact hfirst
  · exact hothers j hj

/-- At most one entry is nearest: of two, the lower would lie strictly farther away than the other. -/
theorem isNearest_unique {cal : CalTable} {v : Voltage} {i k : EntryIndex} (hi : IsNearest cal v i)
    (hk : IsNearest cal v k) : i = k := by
  obtain ⟨hileast, hilow⟩ := hi
  obtain ⟨hkleast, hklow⟩ := hk
  rcases lt_trichotomy i k with hlt | heq | hgt
  · exact absurd (hklow i hlt) (hileast k).not_gt
  · exact heq
  · exact absurd (hilow k hgt) (hkleast i).not_gt

/-- Settles O20: the scan's answer is nearest, and a nearest entry is unique. -/
theorem nearestIndexIsTheLowestOfLeastDistance : Obligations.NearestIndexIsTheLowestOfLeastDistance :=
  fun cal v => ⟨isNearest_nearestIndex cal v, fun _ hi => isNearest_unique hi (isNearest_nearestIndex cal v)⟩

/-! ## The branches of the interpolated map -/

section
variable {cal : CalTable} {note : NoteTable} {v : Voltage} {idx nb : EntryIndex}

/-- R76: the side of `v` by voltage determines the neighbour. -/
theorem neighbour_eq (h0 : idx ≠ 0) (h23 : idx ≠ 23) (habove : cal[idx].toNat < v.toNat → nb.val = idx.val + 1)
    (hbelow : v.toNat ≤ cal[idx].toNat → nb.val + 1 = idx.val) : neighbour cal v idx = nb := by
  apply Fin.ext
  rcases neighbour_cases cal v idx h0 h23 with ⟨hv, hval⟩ | ⟨hv, hval⟩
  · rw [hval, habove hv]
  · have := hbelow hv
    omega

/-- R75: a boundary entry. -/
theorem mapFrom_of_boundary (h : idx = 0 ∨ idx = 23) :
    mapFrom cal note v idx =
      { freq := note[idx], idx := idx, flags := { bnd := true, sat := false, deg := false } } :=
  if_pos h

/-- R76: an interior entry. -/
theorem mapFrom_of_interior (h0 : idx ≠ 0) (h23 : idx ≠ 23) :
    mapFrom cal note v idx = mapSegment cal note v idx (neighbour cal v idx) :=
  if_neg (not_or.2 ⟨h0, h23⟩)

/-- R77: a segment of zero width. -/
theorem mapSegment_of_width_eq_zero (h : segmentWidth cal idx nb = 0) :
    mapSegment cal note v idx nb =
      { freq := note[idx], idx := idx, flags := { bnd := false, sat := false, deg := true } } :=
  if_pos h

/-- R77: any other segment answers the saturated interpolation. -/
theorem mapSegment_of_width_ne_zero {f : Frequency} {sat : Bool} (h : segmentWidth cal idx nb ≠ 0)
    (hsat : saturateFrequency (interpolate cal note v idx nb) = (f, sat)) :
    mapSegment cal note v idx nb = { freq := f, idx := idx, flags := { bnd := false, sat := sat, deg := false } } := by
  rw [mapSegment, if_neg h, hsat]

end

/-! ## Saturation, one equation per range of the exact value (R77) -/

theorem saturateFrequency_of_neg {r : Int} (h : r < 0) : saturateFrequency r = (0#32, true) := by
  rcases saturateFrequency_cases r with ⟨-, heq⟩ | ⟨hgt, -⟩ | ⟨hnonneg, -, -⟩
  · exact heq
  · omega
  · omega

theorem saturateFrequency_of_gt {r : Int} (h : 2 ^ 32 - 1 < r) : saturateFrequency r = (0xFFFFFFFF#32, true) := by
  rcases saturateFrequency_cases r with ⟨hneg, -⟩ | ⟨-, heq⟩ | ⟨-, hle, -⟩
  · omega
  · exact heq
  · omega

theorem saturateFrequency_of_mem_range {r : Int} (hnonneg : 0 ≤ r) (hle : r ≤ 2 ^ 32 - 1) :
    saturateFrequency r = (BitVec.ofNat 32 r.toNat, false) := by
  rcases saturateFrequency_cases r with ⟨hneg, -⟩ | ⟨hgt, -⟩ | ⟨-, -, heq⟩
  · omega
  · omega
  · exact heq

/-! ## MAPI -/

/-- R80: the response of MAPI holds what the map answers at the nearest entry. -/
theorem mapi_hasFields {s : State} {c : Channel} {v : Voltage} {m : PitchResult}
    (h : mapFrom (s.calTable c) s.tables.note v (nearestIndex (s.calTable c) v) = m) :
    HasFields (complete s (pitchResponse 0x02#6 c (mapI (s.calTable c) s.tables.note v)) []).rspBuf
      { op := 0x02#6, ch := channelBits c, idx := entryBits m.idx, data := m.freq, flags := m.flags } :=
  h ▸ hasFields_word _

/-- Settles O23: at the nearest entry, the equation of the branch that each clause describes. -/
theorem mapiInterpolatesTowardTheNeighbour : Obligations.MapiInterpolatesTowardTheNeighbour := by
  intro c v s
  refine ⟨nearestIndex (s.calTable c) v, _, isNearest_nearestIndex _ _, rfl, rfl,
    fun hboundary => mapi_hasFields (mapFrom_of_boundary hboundary), ?_⟩
  intro h0 h23 nb den num r habove hbelow hden hnum hr
  have hmap := mapFrom_of_interior (cal := s.calTable c) (note := s.tables.note) (v := v) h0 h23
  rw [neighbour_eq h0 h23 habove hbelow] at hmap
  have hwidth : segmentWidth (s.calTable c) (nearestIndex (s.calTable c) v) nb = den := hden.symm
  have hinterp : interpolate (s.calTable c) s.tables.note v (nearestIndex (s.calTable c) v) nb = r := by
    rw [hr, ← truncDiv_eq, hnum, ← hwidth]
    rfl
  rw [← hwidth, ← hinterp]
  refine ⟨fun hzero => ?degenerate, fun hne hneg => ?below, fun hne hgt => ?above, fun hne hnonneg hle => ?inRange⟩
  case degenerate => exact mapi_hasFields (hmap.trans (mapSegment_of_width_eq_zero hzero))
  case below =>
    exact mapi_hasFields (hmap.trans (mapSegment_of_width_ne_zero hne (saturateFrequency_of_neg hneg)))
  case above =>
    exact mapi_hasFields (hmap.trans (mapSegment_of_width_ne_zero hne (saturateFrequency_of_gt hgt)))
  case inRange =>
    exact mapi_hasFields
      (hmap.trans (mapSegment_of_width_ne_zero hne (saturateFrequency_of_mem_range hnonneg hle)))

end Sys2Proof.Proofs
end

/-! PROOF. The envelope query (`41_adsr_envelope.md` R82 to R91). Each phase of R83 has one equation for the level, and
ENVQ's response word is determined by the raw level and the phase alone. -/

namespace Sys2Proof.Proofs

open Sys2Proof.Machine Sys2Proof.Laws

/-! ## The level, one equation per phase (R83 to R88) -/

section
variable {p : ParamSet} {e : Nat}

theorem noteOnLevel_of_attack (h : e < p.attack.toNat) : noteOnLevel p e = (attackRaw p e, .attack) :=
  if_pos h

theorem noteOnLevel_of_decay (hattack : p.attack.toNat ≤ e) (hdecay : e < p.attack.toNat + p.decay.toNat) :
    noteOnLevel p e = (decayRaw p (e - p.attack.toNat), .decay) := by
  rw [noteOnLevel, if_neg hattack.not_gt, if_pos hdecay]

theorem noteOnLevel_of_sustain (h : p.attack.toNat + p.decay.toNat ≤ e) :
    noteOnLevel p e = (sustainRaw p, .sustain) := by
  rw [noteOnLevel, if_neg (Nat.le_of_add_right_le h).not_gt, if_neg h.not_gt]

theorem noteOffLevel_of_release (h : e < p.release.toNat) : noteOffLevel p e = (releaseRaw p e, .release) :=
  if_pos h

theorem noteOffLevel_of_idle (h : p.release.toNat ≤ e) : noteOffLevel p e = (0, .idle) :=
  if_neg h.not_gt

end

/-! ## The timestamp that the level is measured from (R82, R83) -/

section
variable {x : ChannelState}

theorem rawLevel_of_noteOn (hon : x.onV = true) (t : Time) (p : ParamSet) :
    rawLevel x t p = noteOnLevel p (elapsedMs t x.onT) := by
  rw [rawLevel, if_pos hon, elapsed_eq]

theorem rawLevel_of_noteOff (hon : x.onV = false) (hoff : x.offV = true) (t : Time) (p : ParamSet) :
    rawLevel x t p = noteOffLevel p (elapsedMs t x.offT) := by
  rw [rawLevel, if_neg (by simp [hon]), if_pos hoff, elapsed_eq]

theorem rawLevel_of_no_timestamp (hon : x.onV = false) (hoff : x.offV = false) (t : Time) (p : ParamSet) :
    rawLevel x t p = (0, .idle) := by
  rw [rawLevel, if_neg (by simp [hon]), if_neg (by simp [hoff])]

end

/-! ## ENVQ -/

/-- The clamped level as a response carries it, zero-extended (R89, R91). -/
theorem clampAmplitude_setWidth (raw : Nat) : (clampAmplitude raw).setWidth 32 = BitVec.ofNat 32 (min raw 65535) := by
  rw [← BitVec.ofNat_toNat, clampAmplitude_toNat]

/-- R91: the response of ENVQ holds the phase and the clamped amplitude of the channel's level. -/
theorem envq_hasFields {s : State} {c : Channel} {t : Time} {raw : Nat} {ph : EnvPhase}
    (h : rawLevel (s.chan c) t s.active = (raw, ph)) :
    HasFields (complete s (envResponse c (envLevel (s.chan c) t s.active)) []).rspBuf
      { op := 0x04#6, ch := channelBits c, phase := ph, data := BitVec.ofNat 32 (min raw 65535) } := by
  have hlevel : envLevel (s.chan c) t s.active = { amp := clampAmplitude raw, phase := ph } := by rw [envLevel, h]
  rw [complete_rspBuf, hlevel, ← clampAmplitude_setWidth]
  exact hasFields_word _

/-- R65: a word that holds the fields `r` shows the code of its phase. -/
theorem phase_and_hasFields {w : ResponseWord} {r : Response} (h : HasFields w r) :
    rspPhase w = phaseCode r.phase ∧ HasFields w r := by
  have ⟨_, _, _, hphase, _⟩ := h
  exact ⟨hphase, h⟩

/-- Settles O26: the timestamp and the elapsed time select one equation of the level, and the response carries it. -/
theorem envqAnswersPhaseAndAmplitude : Obligations.EnvqAnswersPhaseAndAmplitude := by
  intro c t s
  refine ⟨_, rfl, rfl, ?_⟩
  rintro _ _ _ _ _ e rfl rfl rfl rfl rfl
  refine ⟨fun hon he => ?noteOn, fun hon hoff he => ?noteOff, fun hon hoff => ?noTimestamp⟩
  case noteOn =>
    have hraw := rawLevel_of_noteOn hon t s.active
    rw [← he] at hraw
    exact ⟨fun hattack => phase_and_hasFields (envq_hasFields (hraw.trans (noteOnLevel_of_attack hattack))),
      fun hattack hdecay => phase_and_hasFields (envq_hasFields (hraw.trans (noteOnLevel_of_decay hattack hdecay))),
      fun hsustain => phase_and_hasFields (envq_hasFields (hraw.trans (noteOnLevel_of_sustain hsustain)))⟩
  case noteOff =>
    have hraw := rawLevel_of_noteOff hon hoff t s.active
    rw [← he] at hraw
    exact ⟨fun hrelease => phase_and_hasFields (envq_hasFields (hraw.trans (noteOffLevel_of_release hrelease))),
      fun hidle => phase_and_hasFields (envq_hasFields (hraw.trans (noteOffLevel_of_idle hidle)))⟩
  case noTimestamp =>
    exact phase_and_hasFields (envq_hasFields (rawLevel_of_no_timestamp hon hoff t s.active))

end Sys2Proof.Proofs

/-! PROOF. TICK (`42_gate_and_pwm.md` R94 to R100). The state that a TICK leaves has a name, and one lemma per part of
it: its gate and timestamps are those of the gate update, its frequency that of the pitch of the tick, its duty that of
the level measured from its own timestamps, and its response word holds all of them. -/

namespace Sys2Proof.Proofs

open Sys2Proof.Machine Sys2Proof.Laws

/-! ## The gate update, one equation per case (R93 to R96) -/

theorem gateOpen_iff (v : Voltage) : gateOpen v = true ↔ 983 ≤ v.toNat := decide_eq_true_iff

theorem gateOpen_eq_false_iff (v : Voltage) : gateOpen v = false ↔ v.toNat < 983 := by
  rw [← Bool.not_eq_true, gateOpen_iff, Nat.not_le]

section
variable {x : ChannelState} {v : Voltage}

theorem gateUpdate_of_closing (hgate : x.gate = true) (hv : v.toNat < 983) (t : Time) :
    gateUpdate x v t =
      { chan := { x with gate := false, offV := true, offT := t, onV := false, onT := 0#32 },
        rise := false, fall := true } := by
  rcases gateUpdate_cases x v t with ⟨-, hopen, -⟩ | ⟨-, -, heq⟩ | ⟨hlevel, -⟩
  · omega
  · exact heq
  · rw [hgate, eq_comm, decide_eq_true_iff] at hlevel
    omega

theorem gateUpdate_of_opening (hgate : x.gate = false) (hv : 983 ≤ v.toNat) (t : Time) :
    gateUpdate x v t =
      { chan := { x with gate := true, onV := true, onT := t, offV := false, offT := 0#32 },
        rise := true, fall := false } := by
  rcases gateUpdate_cases x v t with ⟨-, -, heq⟩ | ⟨-, hclosed, -⟩ | ⟨hlevel, -⟩
  · exact heq
  · omega
  · rw [hgate, eq_comm, decide_eq_false_iff_not] at hlevel
    exact absurd hv hlevel

theorem gateUpdate_of_no_edge (h : x.gate = true ↔ 983 ≤ v.toNat) (t : Time) :
    gateUpdate x v t = { chan := x, rise := false, fall := false } := by
  rcases gateUpdate_cases x v t with ⟨hgate, hopen, -⟩ | ⟨hgate, hclosed, -⟩ | ⟨-, heq⟩
  · simp [h.2 hopen] at hgate
  · exact absurd (h.1 hgate) hclosed.not_ge
  · exact heq

end

/-- The gate update leaves what the ports show (R97). -/
theorem gateUpdate_keeps_outputs (x : ChannelState) (v : Voltage) (t : Time) :
    (gateUpdate x v t).chan.freqOut = x.freqOut ∧ (gateUpdate x v t).chan.fvalid = x.fvalid := by
  rcases gateUpdate_cases x v t with ⟨-, -, heq⟩ | ⟨-, -, heq⟩ | ⟨-, heq⟩ <;> simp only [heq, and_self]

/-! ## The state a TICK leaves (R100) -/

/-- The pitch of a tick: none below the threshold (R98). -/
def pitchOfTick (c : Channel) (v : Voltage) (s : State) : Option PitchResult :=
  tickPitch (s.calTable c) s.tables.note s.active.slideMode v (gateOpen v)

/-- The state that TICK completes in. -/
def afterTick (c : Channel) (v : Voltage) (t : Time) (s : State) : State :=
  let r := tickResult (s.calTable c) s.tables.note s.active c (s.chan c) v t
  complete (s.setChan c r.chan) r.response r.events

theorem exec_tick (c : Channel) (v : Voltage) (t : Time) (s : State) :
    exec (.tick c v t) s = .next (afterTick c v t s) := rfl

section
variable (c : Channel) (v : Voltage) (t : Time) (s : State)

@[simp] theorem afterTick_active : (afterTick c v t s).active = s.active := rfl

theorem afterTick_chan :
    (afterTick c v t s).chan c = (tickResult (s.calTable c) s.tables.note s.active c (s.chan c) v t).chan := by
  rw [afterTick, complete_chan, setChan_chan_same]

/-- The gate and the timestamps are those of the gate update; the frequency and duty drives keep them. -/
theorem afterTick_gate_and_timestamps :
    ((afterTick c v t s).chan c).gate = (gateUpdate (s.chan c) v t).chan.gate ∧
    ((afterTick c v t s).chan c).onV = (gateUpdate (s.chan c) v t).chan.onV ∧
    ((afterTick c v t s).chan c).onT = (gateUpdate (s.chan c) v t).chan.onT ∧
    ((afterTick c v t s).chan c).offV = (gateUpdate (s.chan c) v t).chan.offV ∧
    ((afterTick c v t s).chan c).offT = (gateUpdate (s.chan c) v t).chan.offT := by
  rw [afterTick_chan]
  obtain ⟨hgate, honV, honT, hoffV, hoffT, -⟩ :=
    driveFrequency_frame (gateUpdate (s.chan c) v t).chan (pitchOfTick c v s)
  exact ⟨hgate, honV, honT, hoffV, hoffT⟩

/-- The frequency and its validity are what the drive makes of the updated channel. -/
theorem afterTick_frequency :
    ((afterTick c v t s).chan c).freqOut =
      (driveFrequency (gateUpdate (s.chan c) v t).chan (pitchOfTick c v s)).freqOut ∧
    ((afterTick c v t s).chan c).fvalid =
      (driveFrequency (gateUpdate (s.chan c) v t).chan (pitchOfTick c v s)).fvalid := by
  rw [afterTick_chan]
  exact ⟨rfl, rfl⟩

/-- The duty is that of the level which the timestamps left behind give: writing the duty itself does not move them. -/
theorem afterTick_dutyOut :
    ((afterTick c v t s).chan c).dutyOut =
      pwmDuty (envLevel ((afterTick c v t s).chan c) t s.active).amp s.active.dutyCycle := by
  rw [afterTick_chan]
  rfl

theorem afterTick_events :
    (afterTick c v t s).events = tickEvents c ((afterTick c v t s).chan c).dutyOut (pitchOfTick c v s) := by
  rw [afterTick_chan]
  rfl

/-- The response of a TICK, read off the state it leaves (R100). -/
theorem afterTick_hasFields :
    HasFields (afterTick c v t s).rspBuf
      { op := 0x08#6, ch := channelBits c
        phase := (envLevel ((afterTick c v t s).chan c) t s.active).phase
        gate := (gateUpdate (s.chan c) v t).chan.gate
        rise := (gateUpdate (s.chan c) v t).rise
        fall := (gateUpdate (s.chan c) v t).fall
        idx := tickIdx (pitchOfTick c v s)
        flags := tickFlags (pitchOfTick c v s)
        data := (envLevel ((afterTick c v t s).chan c) t s.active).amp ++ ((afterTick c v t s).chan c).dutyOut } := by
  rw [afterTick_chan]
  exact hasFields_word _

end

/-! ## The gate and the timestamps (R94 to R96) -/

/-- A TICK leaves the gate and the timestamps of its gate update and reports its edges. -/
theorem tick_follows_gateUpdate {c : Channel} {v : Voltage} {t : Time} {s : State} {g : GateResult}
    (h : gateUpdate (s.chan c) v t = g) :
    ∃ s', exec (.tick c v t) s = .next s' ∧ (s'.chan c).gate = g.chan.gate ∧
      (s'.chan c).onV = g.chan.onV ∧ (s'.chan c).onT = g.chan.onT ∧
      (s'.chan c).offV = g.chan.offV ∧ (s'.chan c).offT = g.chan.offT ∧
      rspRise s'.rspBuf = g.rise ∧ rspFall s'.rspBuf = g.fall ∧ rspGate s'.rspBuf = g.chan.gate := by
  subst h
  obtain ⟨hgate, honV, honT, hoffV, hoffT⟩ := afterTick_gate_and_timestamps c v t s
  obtain ⟨-, -, -, -, -, -, -, hfall, hrise, hrspGate, -, -, -⟩ := afterTick_hasFields c v t s
  exact ⟨_, exec_tick c v t s, hgate, honV, honT, hoffV, hoffT, hrise, hfall, hrspGate⟩

/-- Settles O30: the gate update closes. -/
theorem tickClosesAnOpenGate : Obligations.TickClosesAnOpenGate := by
  intro c v t s hgate hv
  obtain ⟨s', hexec, hgate', honV, honT, hoffV, hoffT, hrise, hfall, hrspGate⟩ :=
    tick_follows_gateUpdate (gateUpdate_of_closing hgate hv t)
  exact ⟨s', hexec, hgate', hoffV, hoffT, honV, honT, hfall, hrise, hrspGate⟩

/-- Settles O31: the gate update opens. -/
theorem tickOpensAClosedGate : Obligations.TickOpensAClosedGate :=
  fun _ _ t _ hgate hv => tick_follows_gateUpdate (gateUpdate_of_opening hgate hv t)

/-- Settles O32: the gate update meets the gate at its level. -/
theorem tickWithoutAnEdgeKeepsTheTimestamps : Obligations.TickWithoutAnEdgeKeepsTheTimestamps :=
  fun _ _ t _ hlevel => tick_follows_gateUpdate (gateUpdate_of_no_edge hlevel t)

/-! ## The frequency (R98) -/

theorem pitchOfTick_of_open {v : Voltage} (hv : 983 ≤ v.toNat) (c : Channel) (s : State) :
    pitchOfTick c v s = some (pitchMap (s.calTable c) s.tables.note s.active.slideMode v) :=
  if_pos ((gateOpen_iff v).2 hv)

theorem pitchOfTick_of_closed {v : Voltage} (hv : v.toNat < 983) (c : Channel) (s : State) :
    pitchOfTick c v s = none :=
  if_neg (by simp [(gateOpen_eq_false_iff v).2 hv])

/-- R74: in the quantized mode the pitch is the note of the nearest entry, without flags. -/
theorem pitchMap_quantized_nearest (cal : CalTable) (note : NoteTable) (v : Voltage) :
    IsNearest cal v (pitchMap cal note .quantized v).idx ∧
      (pitchMap cal note .quantized v).freq = note[(pitchMap cal note .quantized v).idx] ∧
      (pitchMap cal note .quantized v).flags = { bnd := false, sat := false, deg := false } :=
  ⟨isNearest_nearestIndex cal v, rfl, rfl⟩

/-- R80: in the interpolated mode the pitch is what MAPI answers. -/
theorem mapi_answers_pitchMap (c : Channel) (v : Voltage) (s : State) {m : PitchResult}
    (hm : pitchMap (s.calTable c) s.tables.note .interpolated v = m) :
    ∃ q, exec (.mapi c v) s = .next q ∧ rspDataField q.rspBuf = m.freq ∧ rspIdx q.rspBuf = entryBits m.idx ∧
      rspBnd q.rspBuf = m.flags.bnd ∧ rspSat q.rspBuf = m.flags.sat ∧ rspDeg q.rspBuf = m.flags.deg := by
  obtain ⟨-, -, -, -, hdeg, hsat, hbnd, -, -, -, hidx, -, hdata⟩ := mapi_hasFields (s := s) (c := c) hm
  exact ⟨_, rfl, hdata, hidx, hbnd, hsat, hdeg⟩

/-- A closed tick sets no frequency, whatever `rst` is (R50). -/
theorem freqSetPort_of_closed_tick {s : State} {c : Channel} {d : Amplitude} (h : s.events = [.dutySet c d])
    (e : Channel) : freqSetPort s e = false := by
  simp [freqSetPort, h, isFreqSet]

/-- Settles O33: the threshold decides whether the tick has a pitch; with one the drive, the events and the response
carry it, without one they carry nothing. -/
theorem tickDrivesTheFrequency : Obligations.TickDrivesTheFrequency := by
  intro c v t s
  obtain ⟨hfreq, hfvalid⟩ := afterTick_frequency c v t s
  obtain ⟨-, -, -, -, hdeg, hsat, hbnd, -, -, -, hidx, -, -⟩ := afterTick_hasFields c v t s
  have hevents := afterTick_events c v t s
  refine ⟨_, exec_tick c v t s, fun hv => ?opened, fun hv => ?closed⟩
  case opened =>
    rw [pitchOfTick_of_open hv] at hfreq hfvalid hdeg hsat hbnd hidx hevents
    refine ⟨_, fun hmode => ?_, fun hmode => mapi_answers_pitchMap c v s (hmode ▸ rfl), hfreq, hfvalid, hfreq,
      fun hrst => ?_, hevents, hidx, hbnd, hsat, hdeg⟩
    · rw [hmode]
      exact pitchMap_quantized_nearest _ _ v
    · obtain ⟨hpulse, -⟩ := pulses_of_open_tick hevents hrst c
      rw [hpulse, decide_eq_true rfl]
  case closed =>
    rw [pitchOfTick_of_closed hv] at hfreq hfvalid hdeg hsat hbnd hidx hevents
    obtain ⟨hkeepFreq, hkeepFvalid⟩ := gateUpdate_keeps_outputs (s.chan c) v t
    exact ⟨hfreq.trans hkeepFreq, hfvalid.trans hkeepFvalid, hfreq.trans hkeepFreq,
      freqSetPort_of_closed_tick hevents c, hevents, hidx, hbnd, hsat, hdeg⟩

/-! ## The duty (R99) -/

/-- `duty_set` is the last event of a tick, open or closed (R100). -/
theorem tickEvents_getLast? (c : Channel) (d : Amplitude) (m : Option PitchResult) :
    (tickEvents c d m).getLast? = some (.dutySet c d) := by
  cases m <;> rfl

/-- An event that sets the duty of `c` shows as the pulse of `c` while `rst` is low (R50). -/
theorem dutySetPort_of_mem {s : State} {c : Channel} {d : Amplitude} (h : .dutySet c d ∈ s.events)
    (hrst : s.pins.rst = false) : dutySetPort s c = true := by
  have hany : s.events.any (isDutySet c) = true := List.any_eq_true.2 ⟨_, h, decide_eq_true rfl⟩
  rw [dutySetPort, hrst, hany]
  rfl

/-- Two 16-bit values side by side as one number (R100). -/
theorem toNat_append_amplitude (a b : Amplitude) : (a ++ b).toNat = a.toNat * 65536 + b.toNat := by
  rw [BitVec.toNat_append, ← Nat.shiftLeft_add_eq_or_of_lt b.isLt, Nat.shiftLeft_eq]

/-- R91: ENVQ answers the phase of the channel's level and its clamped amplitude as a number. -/
theorem envq_answers_level (c : Channel) (t : Time) (s : State) :
    ∃ q, exec (.envq c t) s = .next q ∧ rspPhase q.rspBuf = phaseCode (rawLevel (s.chan c) t s.active).2 ∧
      (rspDataField q.rspBuf).toNat = min (rawLevel (s.chan c) t s.active).1 65535 := by
  obtain ⟨-, -, -, hphase, -, -, -, -, -, -, -, -, hdata⟩ :=
    envq_hasFields (s := s) (c := c) (t := t) Prod.mk.eta.symm
  refine ⟨_, rfl, hphase, ?_⟩
  rw [hdata, BitVec.toNat_ofNat]
  exact Nat.mod_eq_of_lt (by omega)

theorem envLevel_amp_toNat (x : ChannelState) (t : Time) (p : ParamSet) :
    (envLevel x t p).amp.toNat = min (rawLevel x t p).1 65535 := clampAmplitude_toNat _

/-- Settles O34: the level of the channel that the tick leaves determines the duty and the response, and is the one that
ENVQ reads from there. -/
theorem tickDrivesTheDuty : Obligations.TickDrivesTheDuty := by
  intro c v t s
  obtain ⟨hop, hch, hst, hphase, -, -, -, -, -, -, -, hzero, hdata⟩ := afterTick_hasFields c v t s
  obtain ⟨q, hexec, hqphase, hqdata⟩ := envq_answers_level c t (afterTick c v t s)
  have hlast : (afterTick c v t s).events.getLast? = some (.dutySet c ((afterTick c v t s).chan c).dutyOut) := by
    rw [afterTick_events, tickEvents_getLast?]
  refine ⟨_, _, _, exec_tick c v t s, rfl, rfl, ?duty, rfl, dutySetPort_of_mem (List.mem_of_getLast? hlast), hlast,
    ⟨q, hexec, hqphase.trans hphase.symm, hqdata⟩, hphase, ?data, hop, hch, hst, hzero⟩
  case duty => rw [afterTick_dutyOut, pwmDuty_toNat, envLevel_amp_toNat]
  case data => rw [hdata, toNat_append_amplitude, envLevel_amp_toNat]

end Sys2Proof.Proofs

/-! PROOF. APPLY (`43_parameters.md` R105, R106). It replaces ACTIVE by `derive` of STAGE and completes; what `derive` does
to each field is known once, and writing a parameter set lies outside the interface. -/

namespace Sys2Proof.Proofs

open Sys2Proof.Machine Sys2Proof.Laws

/-- The state that APPLY completes in: ACTIVE is the derived STAGE and DATA is 0 (R106). -/
theorem exec_apply (s : State) :
    exec .apply s = .next (complete { s with active := derive s.stage } (dataResponse 0x11#6 0#32) []) := rfl

/-- A command that writes the parameter sets alone completes with the interface untouched (R48). -/
theorem interfaceFrame_of_parameter_write (s : State) (stage active : ParamSet) (r : Response) (evs : List OutputEvent) :
    InterfaceFrame s (complete { s with stage := stage, active := active } r evs) :=
  ⟨rfl, rfl, rfl, rfl, rfl, rfl, rfl, rfl⟩

/-- Settles O40: the fields of ACTIVE are those of the derived STAGE, and the response word holds its fields. -/
theorem applyReplacesActiveByTheDerivedStage : Obligations.ApplyReplacesActiveByTheDerivedStage := by
  intro s
  obtain ⟨hmaxLevel, hdutyCycle, hslideMode, hsustain, hattack, hdecay, hrelease⟩ := derive_fields s.stage
  have hframe := interfaceFrame_of_parameter_write s s.stage (derive s.stage) (dataResponse 0x11#6 0#32) []
  exact ⟨_, exec_apply s, hmaxLevel, hdutyCycle, hslideMode, hsustain, hattack, hdecay, hrelease, rfl, rfl, rfl, hframe,
    hasFields_word _⟩

end Sys2Proof.Proofs

/-! PROOF. Reset (`70_reset_and_hazards.md` R127, R129). The reset branch of the edge leads to one state, whatever the block
was doing; `rst` gates the handshake outputs and the pulses in its own cycle, and afterwards no event is left to show. -/

namespace Sys2Proof.Proofs

open Sys2Proof.Machine Sys2Proof.Laws

/-- R127: `rst` holds the handshake outputs low, busy block or not. -/
theorem handshakePorts_of_reset {s : State} (hrst : s.pins.rst = true) :
    cmdReadyPort s = false ∧ rspValidPort s = false := by
  simp [cmdReadyPort, rspValidPort, hrst]

/-- R127: `rst` suppresses the pulses, also those of events that the last edge left. -/
theorem pulses_of_reset {s : State} (hrst : s.pins.rst = true) (c : Channel) :
    freqSetPort s c = false ∧ dutySetPort s c = false := by
  simp [freqSetPort, dutySetPort, hrst]

/-- R21, R22: after a reset edge the output registers show 0. -/
theorem outputPorts_resetEdge (s : State) (c : Channel) :
    freqOutPort (resetEdge s) c = 0#32 ∧ dutyOutPort (resetEdge s) c = 0#16 := by
  rw [freqOutPort, dutyOutPort, resetEdge_chan]
  exact ⟨rfl, rfl⟩

/-- Settles O13: the edge is the reset edge, whose fields are the reset values, and it leaves no event to pulse. -/
theorem resetEdgeResetsFromAnyState : Obligations.ResetEdgeResetsFromAnyState := by
  intro s hrst
  obtain ⟨hready, hvalid⟩ := handshakePorts_of_reset hrst
  have htables : (resetEdge (beginEdge s)).tables = s.tables := by
    rw [resetEdge_tables, beginEdge_tables]
  exact ⟨⟨hready, hvalid, pulses_of_reset hrst⟩, _, step_of_reset hrst, resetEdge_chan _, resetEdge_stage _,
    resetEdge_active _, resetEdge_busy _, resetEdge_rspValid _, htables, outputPorts_resetEdge _,
    pulses_of_no_events (resetEdge_events _)⟩

end Sys2Proof.Proofs

/-! PROOF. The round trip of the encoding (`30_encoding.md` R55, R58, R67). Every operand has one code, and the zero
mask leaves a decodable word no field but those its command uses, so each of its six fields is what the encoder writes
there. -/

namespace Sys2Proof.Proofs

open Sys2Proof.Machine Sys2Proof.Laws

/-! ## The operands that a word carries -/

/-- Where every code names its operand and every bit pattern is a code or names nothing, only its code names an
operand. -/
theorem ofBits_eq_some_iff {α β : Type} {ofBits : β → Option α} {bits : α → β} {a : α} {b : β} {rejected : Prop}
    (hbits : ∀ a, ofBits (bits a) = some a)
    (hcases : (∃ a, ofBits b = some a ∧ bits a = b) ∨ (ofBits b = none ∧ rejected)) :
    ofBits b = some a ↔ bits a = b := by
  refine ⟨fun h => ?_, fun h => h ▸ hbits a⟩
  obtain ⟨a', ha', hb⟩ | ⟨hnone, -⟩ := hcases
  · obtain rfl := Option.some.inj (ha'.symm.trans h)
    exact hb
  · exact absurd (hnone.symm.trans h) nofun

theorem channelOperand_eq_ok_iff (w : CommandWord) (c : Channel) :
    channelOperand w = .ok c ↔ channelBits c = chField w := by
  rw [← ofBits_eq_some_iff channelOfBits_bits (channelOfBits_cases _), channelOperand]
  cases channelOfBits (chField w) <;> simp

theorem entryOperand_eq_ok_iff (w : CommandWord) (i : EntryIndex) :
    entryOperand w = .ok i ↔ entryBits i = idxField w := by
  rw [← ofBits_eq_some_iff entryOfBits_bits (entryOfBits_cases _), entryOperand]
  cases entryOfBits (idxField w) <;> simp

theorem fieldOperand_eq_ok_iff (w : CommandWord) (f : ParamField) :
    fieldOperand w = .ok f ↔ paramFieldBits f = selField w := by
  rw [← ofBits_eq_some_iff paramFieldOfBits_bits (paramFieldOfBits_cases _), fieldOperand]
  cases paramFieldOfBits (selField w) <;> simp

theorem viewOperand_eq_ok_iff (w : CommandWord) (view : ChannelView) :
    viewOperand w = .ok view ↔ channelViewBits view = selField w := by
  rw [← ofBits_eq_some_iff channelViewOfBits_bits (channelViewOfBits_cases _), viewOperand]
  cases channelViewOfBits (selField w) <;> simp

/-! ## Decoding what was encoded -/

/-- The opcode and the zero mask pass; what is left of R67 are the operands. -/
theorem decode_of_opcode {w : CommandWord} {o : Opcode} (hop : opField w = opcodeBits o)
    (hunused : ¬HasNonzeroUnusedField o w) : decode w = decodeOperands o w := by
  simp only [decode, hop, opcodeOfBits_bits, if_pos ((and_zeroMask_eq_zero_iff o w).2 hunused)]

theorem opField_encode (i : Instr) : opField (encode i) = opcodeBits i.opcode := by
  cases i <;> exact opField_packCommand ..

/-- R58: the encoder writes 0 in every field that the command does not use. -/
theorem not_hasNonzeroUnusedField_encode (i : Instr) : ¬HasNonzeroUnusedField i.opcode (encode i) := by
  cases i <;> simp [HasNonzeroUnusedField, Instr.opcode, encode]

/-- Each operand check reads back the operand that the encoder wrote. -/
theorem decodeOperands_encode {i : Instr} (h : i.WellFormed) : decodeOperands i.opcode (encode i) = .ok i := by
  have hch {w : CommandWord} {c : Channel} := (channelOperand_eq_ok_iff w c).2
  have hidx {w : CommandWord} {e : EntryIndex} := (entryOperand_eq_ok_iff w e).2
  have hfield {w : CommandWord} {f : ParamField} := (fieldOperand_eq_ok_iff w f).2
  have hview {w : CommandWord} {view : ChannelView} := (viewOperand_eq_ok_iff w view).2
  cases i with
  | mapq c v | mapi c v | envq c t | tick c v t =>
    simp [decodeOperands, Instr.opcode, encode, hch (chField_packCommand ..).symm, Except.map]
  | setp f v =>
    have hwf : (Instr.setp f v).wellFormed = true := h
    simp [decodeOperands, Instr.opcode, encode, setpOperands, hfield (selField_packCommand ..).symm, hwf]
  | apply => rfl
  | rdps f | rdpa f =>
    simp [decodeOperands, Instr.opcode, encode, hfield (selField_packCommand ..).symm, Except.map]
  | rdch c view =>
    simp [decodeOperands, Instr.opcode, encode, rdchOperands, hview (selField_packCommand ..).symm,
      hch (chField_packCommand ..).symm, Except.map]
  | rdcal c e =>
    simp [decodeOperands, Instr.opcode, encode, rdcalOperands, hch (chField_packCommand ..).symm,
      hidx (idxField_packCommand ..).symm, Except.map]
  | rdnote e => simp [decodeOperands, Instr.opcode, encode, hidx (idxField_packCommand ..).symm, Except.map]

/-- Settles O1: the encoding passes the opcode and the zero mask, and its operands read back. -/
theorem decodeOfEncode : Obligations.DecodeOfEncode := fun i h =>
  (decode_of_opcode (opField_encode i) (not_hasNonzeroUnusedField_encode i)).trans (decodeOperands_encode h)

/-! ## Encoding what was decoded -/

theorem packCommand_eq_iff (op : BitVec 6) (ch : BitVec 2) (sel : BitVec 3) (idx : BitVec 5) (v : BitVec 16)
    (t : BitVec 32) (w : CommandWord) :
    packCommand op ch sel idx v t = w ↔
      op = opField w ∧ ch = chField w ∧ sel = selField w ∧ idx = idxField w ∧ v = vField w ∧ t = tField w := by
  constructor
  · rintro rfl
    simp
  · rintro ⟨rfl, rfl, rfl, rfl, rfl, rfl⟩
    exact packCommand_fields w

theorem exists_of_map_eq_ok {ε α β : Type} {x : Except ε α} {f : α → β} {b : β} (h : x.map f = .ok b) :
    ∃ a, x = .ok a ∧ f a = b := by
  cases x with
  | error _ => cases h
  | ok a => exact ⟨a, rfl, Except.ok.inj h⟩

/-- R62 (b), for a word that passes the zero mask: each field is 0 or one that the command uses. -/
theorem fields_of_not_hasNonzeroUnusedField {o : Opcode} {w : CommandWord} (h : ¬HasNonzeroUnusedField o w) :
    ((fieldUse o).ch = false → chField w = 0) ∧ ((fieldUse o).sel = false → selField w = 0) ∧
    ((fieldUse o).idx = false → idxField w = 0) ∧ ((fieldUse o).v = false → vField w = 0) ∧
    ((fieldUse o).t = false → tField w = 0) := by
  simpa [HasNonzeroUnusedField] using h

/-- The command that SETP's operands give has passed the value check. -/
theorem setpOperands_eq_ok {w : CommandWord} {i : Instr} (h : setpOperands w = .ok i) :
    ∃ f, fieldOperand w = .ok f ∧ i = .setp f (vField w) ∧ i.WellFormed := by
  unfold setpOperands at h
  obtain ⟨herr, -⟩ | ⟨f, hok, -, -⟩ := fieldOperand_cases w
  · simp [herr] at h
  · simp only [hok] at h
    split at h
    · next hwf =>
      cases h
      exact ⟨f, hok, rfl, hwf⟩
    · cases h

theorem rdchOperands_eq_ok {w : CommandWord} {i : Instr} (h : rdchOperands w = .ok i) :
    ∃ c view, channelOperand w = .ok c ∧ viewOperand w = .ok view ∧ .rdch c view = i := by
  unfold rdchOperands at h
  obtain ⟨herr, -⟩ | ⟨view, hok, -⟩ := viewOperand_cases w
  · simp [herr] at h
  · rw [hok] at h
    obtain ⟨c, hc, rfl⟩ := exists_of_map_eq_ok h
    exact ⟨c, view, hc, hok, rfl⟩

theorem rdcalOperands_eq_ok {w : CommandWord} {i : Instr} (h : rdcalOperands w = .ok i) :
    ∃ c e, channelOperand w = .ok c ∧ entryOperand w = .ok e ∧ .rdcal c e = i := by
  unfold rdcalOperands at h
  obtain ⟨herr, -⟩ | ⟨c, hok, -⟩ := channelOperand_cases w
  · simp [herr] at h
  · rw [hok] at h
    obtain ⟨e, he, rfl⟩ := exists_of_map_eq_ok h
    exact ⟨c, e, hok, he, rfl⟩

/-- The operands read are the used fields of the word, and the unused ones are 0, as in the encoding. -/
theorem encode_of_decodeOperands {o : Opcode} {w : CommandWord} {i : Instr} (hop : opcodeBits o = opField w)
    (hunused : ¬HasNonzeroUnusedField o w) (h : decodeOperands o w = .ok i) : i.WellFormed ∧ encode i = w := by
  obtain ⟨hch, hsel, hidx, hv, ht⟩ := fields_of_not_hasNonzeroUnusedField hunused
  cases o with
  | mapq | mapi =>
    obtain ⟨c, hc, rfl⟩ := exists_of_map_eq_ok h
    exact ⟨rfl, (packCommand_eq_iff ..).2
      ⟨hop, (channelOperand_eq_ok_iff w c).1 hc, (hsel rfl).symm, (hidx rfl).symm, rfl, (ht rfl).symm⟩⟩
  | envq =>
    obtain ⟨c, hc, rfl⟩ := exists_of_map_eq_ok h
    exact ⟨rfl, (packCommand_eq_iff ..).2
      ⟨hop, (channelOperand_eq_ok_iff w c).1 hc, (hsel rfl).symm, (hidx rfl).symm, (hv rfl).symm, rfl⟩⟩
  | tick =>
    obtain ⟨c, hc, rfl⟩ := exists_of_map_eq_ok h
    exact ⟨rfl, (packCommand_eq_iff ..).2
      ⟨hop, (channelOperand_eq_ok_iff w c).1 hc, (hsel rfl).symm, (hidx rfl).symm, rfl, rfl⟩⟩
  | setp =>
    obtain ⟨f, hf, rfl, hwf⟩ := setpOperands_eq_ok h
    exact ⟨hwf, (packCommand_eq_iff ..).2
      ⟨hop, (hch rfl).symm, (fieldOperand_eq_ok_iff w f).1 hf, (hidx rfl).symm, rfl, (ht rfl).symm⟩⟩
  | apply =>
    cases h
    exact ⟨rfl, (packCommand_eq_iff ..).2
      ⟨hop, (hch rfl).symm, (hsel rfl).symm, (hidx rfl).symm, (hv rfl).symm, (ht rfl).symm⟩⟩
  | rdps | rdpa =>
    obtain ⟨f, hf, rfl⟩ := exists_of_map_eq_ok h
    exact ⟨rfl, (packCommand_eq_iff ..).2
      ⟨hop, (hch rfl).symm, (fieldOperand_eq_ok_iff w f).1 hf, (hidx rfl).symm, (hv rfl).symm, (ht rfl).symm⟩⟩
  | rdch =>
    obtain ⟨c, view, hc, hview, rfl⟩ := rdchOperands_eq_ok h
    exact ⟨rfl, (packCommand_eq_iff ..).2
      ⟨hop, (channelOperand_eq_ok_iff w c).1 hc, (viewOperand_eq_ok_iff w view).1 hview, (hidx rfl).symm, (hv rfl).symm,
        (ht rfl).symm⟩⟩
  | rdcal =>
    obtain ⟨c, e, hc, he, rfl⟩ := rdcalOperands_eq_ok h
    exact ⟨rfl, (packCommand_eq_iff ..).2
      ⟨hop, (channelOperand_eq_ok_iff w c).1 hc, (hsel rfl).symm, (entryOperand_eq_ok_iff w e).1 he, (hv rfl).symm,
        (ht rfl).symm⟩⟩
  | rdnote =>
    obtain ⟨e, he, rfl⟩ := exists_of_map_eq_ok h
    exact ⟨rfl, (packCommand_eq_iff ..).2
      ⟨hop, (hch rfl).symm, (hsel rfl).symm, (entryOperand_eq_ok_iff w e).1 he, (hv rfl).symm, (ht rfl).symm⟩⟩

/-- A word that decodes has passed the opcode, the zero mask and the operand checks of R67. -/
theorem exists_opcode_of_decode {w : CommandWord} {i : Instr} (h : decode w = .ok i) :
    ∃ o, opcodeBits o = opField w ∧ ¬HasNonzeroUnusedField o w ∧ decodeOperands o w = .ok i := by
  cases hop : opcodeOfBits (opField w) with
  | none => simp [decode_of_reserved hop] at h
  | some o =>
    simp only [decode, hop] at h
    split at h
    · next hzero => exact ⟨o, opcodeBits_of_eq_some hop, (and_zeroMask_eq_zero_iff o w).1 hzero, h⟩
    · cases h

/-- Settles O2: what passed the checks of R67 is the encoding, field by field. -/
theorem decodableWordIsTheOneEncoding : Obligations.DecodableWordIsTheOneEncoding := by
  intro w i h
  obtain ⟨o, hop, hunused, hoperands⟩ := exists_opcode_of_decode h
  exact encode_of_decodeOperands hop hunused hoperands

/-! ## The words of the spec -/

/-- Settles O3: a decoder is a computable function, run here on each word of the list. -/
theorem specWordsDecode : Obligations.SpecWordsDecode := by
  unfold Obligations.SpecWordsDecode
  decide

end Sys2Proof.Proofs

/-! PROOF. What a command and an edge can do (`20_memory.md` R50 to R54, `30_encoding.md` R65). A completing command is
a query, a TICK, a SETP or an APPLY, and an edge resets, keeps the engine or completes a command: who writes a piece of
state and who leaves events are read off these cases. -/

namespace Sys2Proof.Proofs

open Sys2Proof.Machine Sys2Proof.Laws

/-! ## The flags of the pitch map (R75, R77) -/

/-- No two of BND, SAT and DEG stand together. -/
def AtMostOneFlag (f : MapFlags) : Prop :=
  (f.bnd && f.sat) = false ∧ (f.bnd && f.deg) = false ∧ (f.sat && f.deg) = false

theorem atMostOneFlag_noMapFlags : AtMostOneFlag noMapFlags := ⟨rfl, rfl, rfl⟩

theorem atMostOneFlag_mapSegment (cal : CalTable) (note : NoteTable) (v : Voltage) (idx nb : EntryIndex) :
    AtMostOneFlag (mapSegment cal note v idx nb).flags := by
  by_cases hwidth : segmentWidth cal idx nb = 0
  · rw [mapSegment_of_width_eq_zero hwidth]
    exact ⟨rfl, rfl, rfl⟩
  · rw [mapSegment_of_width_ne_zero hwidth rfl]
    exact ⟨rfl, rfl, Bool.and_false _⟩

theorem atMostOneFlag_mapI (cal : CalTable) (note : NoteTable) (v : Voltage) :
    AtMostOneFlag (mapI cal note v).flags := by
  rw [mapI]
  by_cases hboundary : nearestIndex cal v = 0 ∨ nearestIndex cal v = 23
  · rw [mapFrom_of_boundary hboundary]
    exact ⟨rfl, rfl, rfl⟩
  · obtain ⟨h0, h23⟩ := not_or.1 hboundary
    rw [mapFrom_of_interior h0 h23]
    exact atMostOneFlag_mapSegment ..

theorem atMostOneFlag_pitchMap (cal : CalTable) (note : NoteTable) (sm : SlideMode) (v : Voltage) :
    AtMostOneFlag (pitchMap cal note sm v).flags := by
  cases sm with
  | quantized => exact atMostOneFlag_noMapFlags
  | interpolated => exact atMostOneFlag_mapI cal note v

theorem atMostOneFlag_pitchOfTick (c : Channel) (v : Voltage) (s : State) :
    AtMostOneFlag (tickFlags (pitchOfTick c v s)) := by
  by_cases hv : 983 ≤ v.toNat
  · rw [pitchOfTick_of_open hv]
    exact atMostOneFlag_pitchMap ..
  · rw [pitchOfTick_of_closed (Nat.not_le.1 hv)]
    exact atMostOneFlag_noMapFlags

/-! ## What a completing command can do -/

/-- The response has the form that R65 gives the response of command `i`. -/
def AnswersInstr (i : Instr) (r : Response) : Prop :=
  r.op = opcodeBits i.opcode ∧ r.ch = chField (encode i) ∧ r.st = .ok ∧ AtMostOneFlag r.flags

/-- The state that a command completes in: a query responds, TICK drives its channel, SETP and APPLY each write their
parameter set. -/
inductive CompletesIn : Instr → State → State → Prop where
  | query {i : Instr} {s : State} (r : Response) (hr : AnswersInstr i r) : CompletesIn i s (complete s r [])
  | tick (c : Channel) (v : Voltage) (tm : Time) (s : State) : CompletesIn (.tick c v tm) s (afterTick c v tm s)
  | setp (f : ParamField) (v : Param) (s : State) :
      CompletesIn (.setp f v) s
        (complete { s with stage := s.stage.setField f v } (dataResponse 0x10#6 0#32) [])
  | apply (s : State) :
      CompletesIn .apply s (complete { s with active := derive s.stage } (dataResponse 0x11#6 0#32) [])

theorem exec_completesIn {i : Instr} {s t : State} (h : exec i s = .next t) : CompletesIn i s t := by
  cases i with
  | mapi c v => cases h; exact .query _ ⟨rfl, (chField_packCommand ..).symm, rfl, atMostOneFlag_mapI ..⟩
  | mapq _ _ | envq _ _ | rdps _ | rdpa _ | rdch _ _ | rdcal _ _ | rdnote _ =>
    cases h; exact .query _ ⟨rfl, (chField_packCommand ..).symm, rfl, atMostOneFlag_noMapFlags⟩
  | tick c v tm => cases h; exact .tick c v tm s
  | setp f v => cases h; exact .setp f v s
  | apply => cases h; exact .apply s

/-- R27, R28, R48: a completing command loads its response and leaves the tables and the rest of the interface. -/
theorem CompletesIn.interfaceFrame {i : Instr} {s t : State} (h : CompletesIn i s t) : InterfaceFrame s t := by
  cases h <;> exact ⟨rfl, rfl, rfl, rfl, rfl, rfl, rfl, rfl⟩

theorem afterTick_chan_ne {c d : Channel} (h : d ≠ c) (v : Voltage) (t : Time) (s : State) :
    (afterTick c v t s).chan d = s.chan d := by
  rw [afterTick, complete_chan, setChan_chan_ne s _ h]

/-! ## The word that completes -/

theorem runCommand_of_ok {w : CommandWord} {i : Instr} (h : decode w = .ok i) (s : State) :
    runCommand w s = exec i s := by
  simp only [runCommand, h]

/-- Settles O8: the completing edge runs the word, and the word is its command. -/
theorem stepRunsTheDecodedCommand : Obligations.StepRunsTheDecodedCommand := fun _ _ hcompleting hdecode =>
  (step_of_completing hcompleting).trans (runCommand_of_ok hdecode _)

theorem withAccepted_pins_rst (s : State) (w : CommandWord) : (withAccepted s w).pins.rst = false := by
  cases h : s.inputs <;> simp [State.pins, h, releaseReset, HostInputs.idle]

/-- The state in which a word was accepted with no latency left completes it at the next edge. -/
theorem withAccepted_completing (s : State) (w : CommandWord) : (withAccepted s w).Completing :=
  ⟨withAccepted_pins_rst s w, rfl, rfl, rfl⟩

theorem withFetchWord_eq (s : State) (w : CommandWord) : s.withFetchWord 64 w.toNat = withAccepted s w := by
  rw [State.withFetchWord, Nat.mod_eq_of_lt w.isLt, BitVec.ofNat_toNat, BitVec.setWidth_eq]

/-- Settles O9: the placed word completes at the next edge and decodes to the command it encodes. -/
theorem placedCommandRuns : Obligations.PlacedCommandRuns := by
  intro s i hwf
  rw [withFetchWord_eq]
  have hcompleting := withAccepted_completing s (encode i)
  exact ⟨hcompleting, (step_of_completing hcompleting).trans (runCommand_of_ok (decodeOfEncode i hwf) _)⟩

/-- R54: a word always gives a next state. -/
theorem exists_runCommand (w : CommandWord) (s : State) : ∃ t, runCommand w s = .next t := by
  obtain ⟨i, -, hrun⟩ | ⟨e, -, hrun⟩ := runCommand_cases w s
  · rw [hrun]
    exact exec_next i s
  · exact ⟨_, hrun⟩

/-- Settles O10: four of the five cases of an edge name the next state, and the completing edge is total as `Step`
is. -/
theorem everyEdgeGivesANextState : Obligations.EveryEdgeGivesANextState := by
  intro s
  obtain ⟨-, h⟩ | ⟨-, -, h⟩ | ⟨-, -, -, h⟩ | ⟨n, -, -, -, -, h⟩ | ⟨-, h⟩ := step_cases s
  · exact ⟨_, h⟩
  · exact ⟨_, h⟩
  · exact ⟨_, h⟩
  · exact ⟨_, h⟩
  · rw [h]
    exact exists_runCommand _ _

/-! ## The engine alone determines a command (R54) -/

/-- From one engine a command leads to one engine, one response and the same events. A command that names a channel
factors through the channel, the tables and ACTIVE; the others read a parameter set or the note table. -/
theorem exec_of_sameEngine {s s' : State} (h : SameEngine s s') (i : Instr) :
    ∃ t t', exec i s = .next t ∧ exec i s' = .next t' ∧ SameEngine t t' ∧
      t'.rspBuf = t.rspBuf ∧ t'.events = t.events := by
  obtain ⟨hchannels, hstage, hactive, htables⟩ := h
  cases hi : namedChannel i with
  | some c =>
    obtain ⟨f, hf⟩ := actsThroughChannel_of_namedChannel hi
    have hf' := hf s'
    rw [State.chan, hchannels, hactive, htables] at hf'
    refine ⟨_, _, hf s, hf', ⟨?_, hstage, hactive, htables⟩, rfl, rfl⟩
    simp only [complete_channels, setChan_channels, hchannels]
    rfl
  | none =>
    cases i with
    | setp f v =>
      exact ⟨_, _, rfl, rfl, ⟨hchannels, congrArg (·.setField f v) hstage, hactive, htables⟩, rfl, rfl⟩
    | apply => exact ⟨_, _, rfl, rfl, ⟨hchannels, hstage, congrArg derive hstage, htables⟩, rfl, rfl⟩
    | rdps f =>
      refine ⟨_, _, rfl, rfl, ⟨hchannels, hstage, hactive, htables⟩, ?_, rfl⟩
      simp only [complete_rspBuf, hstage]
    | rdpa f =>
      refine ⟨_, _, rfl, rfl, ⟨hchannels, hstage, hactive, htables⟩, ?_, rfl⟩
      simp only [complete_rspBuf, hactive]
    | rdnote e =>
      refine ⟨_, _, rfl, rfl, ⟨hchannels, hstage, hactive, htables⟩, ?_, rfl⟩
      simp only [complete_rspBuf, noteRead, htables]
    | mapq _ _ | mapi _ _ | envq _ _ | tick _ _ _ | rdch _ _ | rdcal _ _ => cases hi

/-- Settles O47: an erroneous word answers from the word alone, any other is a command. -/
theorem commandsDependOnTheEngineAlone : Obligations.CommandsDependOnTheEngineAlone := by
  intro w s s' h
  cases hdecode : decode w with
  | ok i =>
    rw [runCommand_of_ok hdecode, runCommand_of_ok hdecode]
    exact exec_of_sameEngine h i
  | error e =>
    rw [runCommand_of_error hdecode, runCommand_of_error hdecode]
    exact ⟨_, _, rfl, rfl, h, rfl, rfl⟩

/-! ## What an edge does to the engine and the events -/

/-- An edge resets, or it leaves the engine and no event, or it completes a command that decodes. -/
theorem step_next_cases {s t : State} (h : step s = .next t) :
    (s.pins.rst = true ∧ t = resetEdge (beginEdge s)) ∨ (SameEngine s t ∧ t.events = []) ∨
      (s.Completing ∧ ∃ i, decode s.command = .ok i ∧ CompletesIn i (beginEdge s) t) := by
  obtain ⟨hrst, hs⟩ | ⟨-, -, hs⟩ | ⟨-, -, -, hs⟩ | ⟨n, -, -, -, -, hs⟩ | ⟨hcompleting, hs⟩ := step_cases s
  · cases hs.symm.trans h
    exact .inl ⟨hrst, rfl⟩
  · cases hs.symm.trans h
    obtain ⟨-, heq⟩ | ⟨-, heq⟩ := readyEdge_cases s.pins (beginEdge s) <;> rw [heq] <;>
      exact .inr (.inl ⟨⟨rfl, rfl, rfl, rfl⟩, rfl⟩)
  · cases hs.symm.trans h
    obtain ⟨-, heq⟩ | ⟨-, heq⟩ := respondingEdge_cases s.pins (beginEdge s) <;> rw [heq] <;>
      exact .inr (.inl ⟨⟨rfl, rfl, rfl, rfl⟩, rfl⟩)
  · cases hs.symm.trans h
    exact .inr (.inl ⟨⟨rfl, rfl, rfl, rfl⟩, rfl⟩)
  · obtain ⟨i, hdecode, hrun⟩ | ⟨e, -, hrun⟩ := runCommand_cases s.command (beginEdge s)
    · exact .inr (.inr ⟨hcompleting, i, hdecode, exec_completesIn (hrun.symm.trans (hs.symm.trans h))⟩)
    · cases hrun.symm.trans (hs.symm.trans h)
      exact .inr (.inl ⟨⟨rfl, rfl, rfl, rfl⟩, rfl⟩)

/-- R50: while a response is offered, nothing completes and an edge leaves no event. -/
theorem events_of_step_of_rspValid {s t : State} (hvalid : s.rspValid = true) (h : step s = .next t) :
    t.events = [] := by
  obtain ⟨-, rfl⟩ | ⟨-, hevents⟩ | ⟨⟨-, -, hnone, -⟩, -⟩ := step_next_cases h
  · rfl
  · exact hevents
  · exact absurd (hnone.symm.trans hvalid) nofun

/-- Settles O19: of the commands only TICK leaves events, and in a sound state events stand beside an offered
response. -/
theorem onlyTickPulsesAndForOneCycle : Obligations.OnlyTickPulsesAndForOneCycle := by
  intro s t h
  constructor
  · intro hne
    obtain ⟨-, rfl⟩ | ⟨-, hevents⟩ | ⟨hcompleting, i, hdecode, hi⟩ := step_next_cases h
    · exact absurd rfl hne
    · exact absurd hevents hne
    · cases hi with
      | tick c v tm => exact ⟨hcompleting, c, v, tm, hdecode⟩
      | query | setp | apply => exact absurd rfl hne
  · rintro ⟨-, -, -, -, hpulses⟩ hne
    exact events_of_step_of_rspValid (hpulses hne) h

/-! ## Who writes what (R17 to R29) -/

/-- A completing command keeps every channel but the one of its TICK, STAGE unless it is SETP, and ACTIVE unless it is
APPLY. -/
theorem CompletesIn.writes_own {i : Instr} {s t : State} (h : CompletesIn i s t) (c : Channel) :
    (t.chan c = s.chan c ∨ ∃ v tm, i = .tick c v tm) ∧ (t.stage = s.stage ∨ ∃ f v, i = .setp f v) ∧
      (t.active = s.active ∨ i = .apply) := by
  cases h with
  | query => exact ⟨.inl rfl, .inl rfl, .inl rfl⟩
  | tick d v tm =>
    refine ⟨?_, .inl rfl, .inl rfl⟩
    by_cases hcd : c = d
    · exact .inr ⟨v, tm, by rw [hcd]⟩
    · exact .inl (afterTick_chan_ne hcd v tm s)
  | setp f v => exact ⟨.inl rfl, .inr ⟨f, v, rfl⟩, .inl rfl⟩
  | apply => exact ⟨.inl rfl, .inl rfl, .inr rfl⟩

/-- Settles O49: a reset edge may write anything but the tables, an edge without a completion writes nothing, and a
completing command writes its own piece. -/
theorem stateChangesOnlyByItsOwnCommand : Obligations.StateChangesOnlyByItsOwnCommand := by
  intro s t c h
  obtain ⟨hrst, rfl⟩ | ⟨⟨hchannels, hstage, hactive, htables⟩, -⟩ | ⟨hcompleting, i, hdecode, hi⟩ := step_next_cases h
  · exact ⟨rfl, fun _ => .inl hrst, fun _ => .inl hrst, fun _ => .inl hrst⟩
  · have hchan : t.chan c = s.chan c := by rw [State.chan, State.chan, hchannels]
    exact ⟨htables, fun hne => absurd hchan hne, fun hne => absurd hstage hne, fun hne => absurd hactive hne⟩
  · obtain ⟨htables, -⟩ := hi.interfaceFrame
    obtain ⟨hchan, hstage, hactive⟩ := hi.writes_own c
    refine ⟨htables, fun hne => .inr ⟨hcompleting, ?_⟩, fun hne => .inr ⟨hcompleting, ?_⟩,
      fun hne => .inr ⟨hcompleting, ?_⟩⟩
    · obtain ⟨v, tm, rfl⟩ := hchan.resolve_left hne
      exact ⟨v, tm, hdecode⟩
    · obtain ⟨f, v, rfl⟩ := hstage.resolve_left hne
      exact ⟨f, v, hdecode⟩
    · obtain rfl := hactive.resolve_left hne
      exact hdecode

end Sys2Proof.Proofs

/-! PROOF. The invariant of the block (`10_state.md` R20, R26, `20_memory.md` R50, R53, `30_encoding.md` R65, R66). Its
three parts are kept one by one: a channel by the sub-blocks of TICK, the times of ACTIVE by the clamp of APPLY, and the
interface by the form of every response. -/

namespace Sys2Proof.Proofs

open Sys2Proof.Machine Sys2Proof.Laws

/-! ## Channels -/

theorem channelReset_sound : ChannelState.reset.Sound := by
  simp [ChannelState.Sound, ChannelState.reset]

/-- R20: an opening, a closing and a tick that meets the gate at its level each leave the timestamps fitting the gate,
and the frequency drive of an open gate sets FVALID. -/
theorem driveFrequency_gateUpdate_sound {x : ChannelState} (hx : x.Sound) (c : Channel) (v : Voltage) (t : Time)
    (s : State) : (driveFrequency (gateUpdate x v t).chan (pitchOfTick c v s)).Sound := by
  obtain ⟨hboth, hgate, hnever, hsince, hclosed, honT, hoffT, hsilent⟩ := hx
  obtain ⟨-, hv, heq⟩ | ⟨hopen, hv, heq⟩ | ⟨hlevel, heq⟩ := gateUpdate_cases x v t <;> rw [heq]
  · rw [pitchOfTick_of_open hv]
    simp [ChannelState.Sound, driveFrequency]
  · rw [pitchOfTick_of_closed hv]
    have hvalid : x.fvalid = true :=
      Bool.eq_true_of_not_eq_false fun hinvalid => absurd ((hgate hopen).symm.trans (hnever hinvalid).1) nofun
    simp [ChannelState.Sound, driveFrequency, hvalid]
  · by_cases hv : 983 ≤ v.toNat
    · rw [pitchOfTick_of_open hv]
      have hopen : x.gate = true := hlevel.trans (decide_eq_true hv)
      have honV := hgate hopen
      have hoffV : x.offV = false := by simpa [honV] using hboth
      simp [ChannelState.Sound, driveFrequency, honV, hoffV, hopen, hoffT hoffV]
    · rw [pitchOfTick_of_closed (Nat.not_le.1 hv)]
      exact ⟨hboth, hgate, hnever, hsince, hclosed, honT, hoffT, hsilent⟩

/-- Writing the duty keeps a channel sound, provided that a channel never opened gets 0. -/
theorem sound_of_dutyOut {x : ChannelState} (hx : x.Sound) {d : Amplitude} (hd : x.fvalid = false → d = 0#16) :
    { x with dutyOut := d }.Sound := by
  obtain ⟨hboth, hgate, hnever, hsince, hclosed, honT, hoffT, hsilent⟩ := hx
  exact ⟨hboth, hgate, hnever, hsince, hclosed, honT, hoffT, fun h => ⟨(hsilent h).1, hd h⟩⟩

/-- R88, R99: without a timestamp the duty is 0. -/
theorem pwmDuty_of_no_timestamp {x : ChannelState} (hon : x.onV = false) (hoff : x.offV = false) (t : Time)
    (p : ParamSet) : pwmDuty (envLevel x t p).amp p.dutyCycle = 0#16 := by
  have hamp : (envLevel x t p).amp.toNat = 0 := by rw [envLevel_amp_toNat, rawLevel_of_no_timestamp hon hoff]; rfl
  apply BitVec.eq_of_toNat_eq
  simp [hamp]

theorem afterTick_chan_sound {s : State} (hs : ∀ c, (s.chan c).Sound) (c : Channel) (v : Voltage) (t : Time)
    (d : Channel) : ((afterTick c v t s).chan d).Sound := by
  by_cases hd : d = c
  · subst hd
    have hdriven := driveFrequency_gateUpdate_sound (hs d) d v t s
    rw [afterTick_chan]
    refine sound_of_dutyOut hdriven fun hinvalid => ?_
    obtain ⟨-, -, hnever, -⟩ := hdriven
    obtain ⟨hon, hoff⟩ := hnever hinvalid
    exact pwmDuty_of_no_timestamp hon hoff t s.active
  · rw [afterTick_chan_ne hd]
    exact hs d

/-! ## ACTIVE -/

theorem activeReset_engineReady : ParamSet.activeReset.EngineReady := by
  unfold ParamSet.EngineReady
  decide

/-- R105: the clamp of `Derive` is what makes ACTIVE ready. -/
theorem derive_engineReady (p : ParamSet) : (derive p).EngineReady := by
  obtain ⟨-, -, -, -, hattack, hdecay, hrelease⟩ := derive_fields p
  simp [ParamSet.EngineReady, Config.epsMs, hattack, hdecay, hrelease]

/-! ## The engine part of the invariant -/

/-- The channels and ACTIVE are as the invariant wants them. -/
def EngineSound (s : State) : Prop := (∀ c, (s.chan c).Sound) ∧ s.active.EngineReady

theorem engineSound_of_sameEngine {s t : State} (hs : EngineSound s) (h : SameEngine s t) : EngineSound t := by
  obtain ⟨hchannels, -, hactive, -⟩ := h
  obtain ⟨hchan, hready⟩ := hs
  rw [EngineSound, hactive]
  exact ⟨fun c => by rw [State.chan, hchannels]; exact hchan c, hready⟩

theorem resetEdge_engineSound (s : State) : EngineSound (resetEdge s) :=
  ⟨fun c => by rw [resetEdge_chan]; exact channelReset_sound, activeReset_engineReady⟩

theorem CompletesIn.engineSound {i : Instr} {s t : State} (h : CompletesIn i s t) (hs : EngineSound s) :
    EngineSound t := by
  obtain ⟨hchan, hready⟩ := hs
  cases h with
  | query => exact ⟨hchan, hready⟩
  | tick c v tm => exact ⟨afterTick_chan_sound hchan c v tm, hready⟩
  | setp => exact ⟨hchan, hready⟩
  | apply => exact ⟨hchan, derive_engineReady s.stage⟩

theorem step_engineSound {s t : State} (hs : EngineSound s) (h : step s = .next t) : EngineSound t := by
  obtain ⟨-, rfl⟩ | ⟨hsame, -⟩ | ⟨-, i, -, hi⟩ := step_next_cases h
  · exact resetEdge_engineSound _
  · exact engineSound_of_sameEngine hs hsame
  · exact hi.engineSound (engineSound_of_sameEngine hs ⟨rfl, rfl, rfl, rfl⟩)

/-! ## The form of a response (R65, R66) -/

/-- Settles O6: the word holds the fields, and the status and the phase stand there as their codes. -/
theorem responseWordHoldsItsFields : Obligations.ResponseWordHoldsItsFields := by
  intro r
  have hst {st : Status} (h : r.st = st) : rspSt r.word = statusCode st := h ▸ rspSt_word r
  have hphase {ph : EnvPhase} (h : r.phase = ph) : rspPhase r.word = phaseCode ph := h ▸ rspPhase_word r
  exact ⟨hasFields_word r, hst, hst, hst, hst, hphase, hphase, hphase, hphase, hphase⟩

theorem phaseCode_toNat_le (ph : EnvPhase) : (phaseCode ph).toNat ≤ 4 := by
  cases ph <;> decide

theorem answersCommand_of_hasFields {i : Instr} {word : ResponseWord} {r : Response} (hword : HasFields word r)
    (hr : AnswersInstr i r) : AnswersCommand (encode i) word := by
  obtain ⟨hop, hch, hst, hphase, hdeg, hsat, hbnd, -, -, -, -, hzero, -⟩ := hword
  obtain ⟨hrop, hrch, hrst, hbndsat, hbnddeg, hsatdeg⟩ := hr
  refine ⟨?op, hch.trans hrch, hzero, ?phase, ?_, ?_, ?_, fun herror => ?status⟩
  case op => rw [hop, hrop, opField_encode]
  case phase => rw [hphase]; exact phaseCode_toNat_le _
  case status => exact absurd (by rw [hst, hrst]; rfl) herror
  · rw [hbnd, hsat, hbndsat]
  · rw [hbnd, hdeg, hbnddeg]
  · rw [hsat, hdeg, hsatdeg]

theorem CompletesIn.answersCommand {i : Instr} {s t : State} (h : CompletesIn i s t) :
    AnswersCommand (encode i) t.rspBuf := by
  cases h with
  | query r hr => exact answersCommand_of_hasFields (hasFields_word r) hr
  | tick c v tm =>
    exact answersCommand_of_hasFields (afterTick_hasFields c v tm s)
      ⟨rfl, (chField_packCommand ..).symm, rfl, atMostOneFlag_pitchOfTick c v s⟩
  | setp | apply =>
    exact answersCommand_of_hasFields (hasFields_word _)
      ⟨rfl, (chField_packCommand ..).symm, rfl, atMostOneFlag_noMapFlags⟩

/-- R66: an error response answers the erroneous word. -/
theorem errorResponse_answersCommand (w : CommandWord) (e : DecodeError) :
    AnswersCommand w (errorResponse w e).word := by
  obtain ⟨hop, hch, -, hphase, hdeg, hsat, hbnd, -, -, -, -, hzero, -⟩ := hasFields_word (errorResponse w e)
  refine ⟨hop, hch, hzero, ?phase, ?_, ?_, ?_, fun _ => errorResponse_word_low w e⟩
  case phase => rw [hphase]; exact phaseCode_toNat_le _
  · rw [hbnd, hsat]; rfl
  · rw [hbnd, hdeg]; rfl
  · rw [hsat, hdeg]; rfl

/-! ## The interface part of the invariant -/

/-- A block that offers no response and shows no pulse has nothing to answer. -/
theorem interfaceSound_of_no_response {s : State} (hvalid : s.rspValid = false) (hevents : s.events = []) :
    s.InterfaceSound := by
  simp [State.InterfaceSound, hvalid, hevents]

/-- A word that completes in a busy block is answered there (R48, R53). -/
theorem interfaceSound_of_runCommand {s t : State} (hbusy : s.busy = true) (h : runCommand s.command s = .next t) :
    t.InterfaceSound := by
  obtain ⟨i, hdecode, hrun⟩ | ⟨e, -, hrun⟩ := runCommand_cases s.command s
  · have hi := exec_completesIn (hrun.symm.trans h)
    obtain ⟨-, hbusy', hcommand, -, -, -, -, hvalid⟩ := hi.interfaceFrame
    obtain ⟨-, hencode⟩ := decodableWordIsTheOneEncoding s.command i hdecode
    refine ⟨fun _ => hbusy'.trans hbusy, fun _ => ?_, fun _ => hvalid⟩
    rw [hcommand, ← hencode]
    exact hi.answersCommand
  · cases hrun.symm.trans h
    exact ⟨fun _ => hbusy, fun _ => errorResponse_answersCommand s.command e, fun _ => rfl⟩

theorem step_interfaceSound {s t : State} (hs : s.InterfaceSound) (h : step s = .next t) : t.InterfaceSound := by
  obtain ⟨hbusyOfValid, hanswers, -⟩ := hs
  obtain ⟨-, hs⟩ | ⟨-, hidle, hs⟩ | ⟨-, hbusy, -, hs⟩ | ⟨n, -, -, hnone, -, hs⟩ | ⟨⟨-, hbusy, -⟩, hs⟩ := step_cases s
  · cases hs.symm.trans h
    exact interfaceSound_of_no_response rfl rfl
  · cases hs.symm.trans h
    have hnone : s.rspValid = false :=
      Bool.eq_false_iff.2 fun hvalid => absurd (hidle.symm.trans (hbusyOfValid hvalid)) nofun
    obtain ⟨-, heq⟩ | ⟨-, heq⟩ := readyEdge_cases s.pins (beginEdge s) <;> rw [heq] <;>
      exact interfaceSound_of_no_response hnone rfl
  · cases hs.symm.trans h
    obtain ⟨-, heq⟩ | ⟨-, heq⟩ := respondingEdge_cases s.pins (beginEdge s) <;> rw [heq]
    · exact interfaceSound_of_no_response rfl rfl
    · exact ⟨fun _ => hbusy, hanswers, fun hne => absurd rfl hne⟩
  · cases hs.symm.trans h
    exact interfaceSound_of_no_response hnone rfl
  · exact interfaceSound_of_runCommand (s := beginEdge s) hbusy (hs.symm.trans h)

/-! ## The invariant -/

theorem sound_iff (s : State) : s.Sound ↔ EngineSound s ∧ s.InterfaceSound := and_assoc.symm

/-- Settles O48: an edge keeps the engine part and the interface part. -/
theorem everyEdgeKeepsTheBlockSound : Obligations.EveryEdgeKeepsTheBlockSound := by
  intro s t hs h
  obtain ⟨hengine, hinterface⟩ := (sound_iff s).1 hs
  exact (sound_iff t).2 ⟨step_engineSound hengine h, step_interfaceSound hinterface h⟩

/-- Settles O50: silent channels, a derived patch and nothing offered. -/
theorem resetIsSound : Obligations.ResetIsSound :=
  ⟨fun c => by rw [reset_chan]; exact channelReset_sound, activeReset_engineReady,
    interfaceSound_of_no_response rfl rfl⟩

/-- Settles O12: the reset values of the channels, and of each register by evaluation. -/
theorem resetLeavesTheDefaultPatch : Obligations.ResetLeavesTheDefaultPatch := by
  have hports (c : Channel) : freqOutPort State.reset c = 0#32 ∧ dutyOutPort State.reset c = 0#16 := by
    rw [freqOutPort, dutyOutPort, reset_chan]
    exact ⟨rfl, rfl⟩
  exact ⟨reset_chan, rfl, rfl, rfl, rfl, rfl, rfl, hports⟩

end Sys2Proof.Proofs

/-! PROOF. Runs of edges (`20_memory.md` R48 to R53, `60_exceptions.md` R126). Stalled and idle blocks take the same
edge, which only lets a cycle pass, so one induction serves both; a command in flight counts its latency down in
another. -/

namespace Sys2Proof.Proofs

open Sys2Proof.Machine Sys2Proof.Laws

theorem runEdges_succ {s t : State} (h : step s = .next t) (n : Nat) : runEdges (n + 1) s = runEdges n t := by
  simp only [runEdges, h]

theorem pins_eq_of_inputs {s : State} {p : HostInputs} {ps : List HostInputs} (h : s.inputs = p :: ps) :
    s.pins = p := by
  simp [State.pins, h]

/-- What holds of every listed cycle and of an idle host holds of the present cycle. -/
theorem pins_of_forall_inputs {P : HostInputs → Prop} {s : State} (hidle : P .idle) (h : ∀ p ∈ s.inputs, P p) :
    P s.pins := by
  cases hin : s.inputs with
  | nil => simpa [State.pins, hin] using hidle
  | cons p ps =>
    rw [pins_eq_of_inputs hin]
    exact h p (by simp [hin])

/-! ## A block that lets the cycles pass -/

/-- `t` is `s` at a later edge: only the pins, the pulses and the count of edges have moved on. -/
def HeldFrom (s t : State) : Prop := t = { s with inputs := t.inputs, events := t.events, edges := t.edges }

theorem HeldFrom.sameEngine {s t : State} (h : HeldFrom s t) : SameEngine s t := by
  rw [h]
  exact ⟨rfl, rfl, rfl, rfl⟩

theorem HeldFrom.outputPorts {s t : State} (h : HeldFrom s t) (c : Channel) :
    freqOutPort t c = freqOutPort s c ∧ dutyOutPort t c = dutyOutPort s c := by
  rw [h]
  exact ⟨rfl, rfl⟩

/-- A condition under which an edge only lets a cycle pass, and which outlasts the cycle, holds the block for good. -/
theorem runEdges_held {P : State → Prop} (hpass : ∀ s, P s → step s = .next (beginEdge s) ∧ P (beginEdge s)) (n : Nat)
    (s : State) (hs : P s) : P (runEdges n s) ∧ HeldFrom s (runEdges n s) := by
  induction n generalizing s with
  | zero => exact ⟨hs, rfl⟩
  | succ n ih =>
    obtain ⟨hstep, hnext⟩ := hpass s hs
    rw [runEdges_succ hstep]
    exact ih (beginEdge s) hnext

/-- R53: a response is offered and the host will not take it. -/
def Stalled (s : State) : Prop :=
  s.busy = true ∧ s.rspValid = true ∧ ∀ p ∈ s.inputs, p.rst = false ∧ p.rspReady = false

theorem Stalled.pins {s : State} (h : Stalled s) : s.pins.rst = false ∧ s.pins.rspReady = false :=
  pins_of_forall_inputs ⟨rfl, rfl⟩ h.2.2

theorem Stalled.passes (s : State) (h : Stalled s) : step s = .next (beginEdge s) ∧ Stalled (beginEdge s) := by
  obtain ⟨hrst, hready⟩ := h.pins
  obtain ⟨hbusy, hvalid, hhost⟩ := h
  refine ⟨?_, hbusy, hvalid, fun p hp => hhost p (List.mem_of_mem_tail hp)⟩
  rw [step_of_responding hrst hbusy hvalid, respondingEdge, if_neg (by simp [hready])]

/-- Settles O16: a stalled block is held, and being stalled it is busy and offers its response. -/
theorem untakenResponseStallsTheBlock : Obligations.UntakenResponseStallsTheBlock := by
  intro n s hbusy hvalid hhost
  obtain ⟨hstalled, hheld⟩ := runEdges_held Stalled.passes n s ⟨hbusy, hvalid, hhost⟩
  obtain ⟨hrst, -⟩ := hstalled.pins
  obtain ⟨hbusy', hvalid', -⟩ := hstalled
  refine ⟨hheld.sameEngine, by rw [hheld], by rw [hheld], by rw [hheld], ?notReady, ?offered, hheld.outputPorts⟩
  case notReady => simp [cmdReadyPort, hbusy']
  case offered => simp [rspValidPort, hrst, hvalid']

/-- R126: the block is ready and the host will offer no command. -/
def Unoffered (s : State) : Prop := s.busy = false ∧ ∀ p ∈ s.inputs, p.rst = false ∧ p.cmdValid = false

theorem Unoffered.passes (s : State) (h : Unoffered s) : step s = .next (beginEdge s) ∧ Unoffered (beginEdge s) := by
  obtain ⟨hbusy, hhost⟩ := h
  obtain ⟨hrst, hnone⟩ := pins_of_forall_inputs (P := fun p => p.rst = false ∧ p.cmdValid = false) ⟨rfl, rfl⟩ hhost
  refine ⟨?_, hbusy, fun p hp => hhost p (List.mem_of_mem_tail hp)⟩
  rw [step_of_ready hrst hbusy, readyEdge, if_neg (by simp [hnone])]

/-- Settles O17: a ready block without an offer is held. -/
theorem idleBlockHoldsItsState : Obligations.IdleBlockHoldsItsState := by
  intro n s hbusy hhost
  obtain ⟨⟨hbusy', -⟩, hheld⟩ := runEdges_held Unoffered.passes n s ⟨hbusy, hhost⟩
  exact ⟨hheld.sameEngine, hbusy', hheld.outputPorts⟩

/-! ## A command in flight -/

/-- `t` is `s`, in which a command is in flight, `k` edges later, still in flight. -/
structure InFlightFrom (s t : State) (k : Nat) : Prop where
  engine : SameEngine s t
  busy : t.busy = true
  noResponse : t.rspValid = false
  command : t.command = s.command
  wait : t.wait + k = s.wait
  inputs : t.inputs = s.inputs.drop k

/-- The state after an edge that leaves `n` edges of latency. -/
def countDown (s : State) (n : Nat) : State := { beginEdge s with wait := n }

/-- R51: an edge with latency left counts it down by one. -/
theorem step_of_waiting {s : State} {n : Nat} (hrst : s.pins.rst = false) (hbusy : s.busy = true)
    (hnone : s.rspValid = false) (hwait : s.wait = n + 1) : step s = .next (countDown s n) := by
  rw [step_of_executing hrst hbusy hnone, executingEdge, beginEdge_wait, hwait]
  rfl

/-- A run of `m + n` edges is one of `n` edges after one of `m`. -/
theorem runEdges_add (m n : Nat) (s : State) : runEdges (m + n) s = runEdges n (runEdges m s) := by
  induction m generalizing s with
  | zero => rw [Nat.zero_add]; rfl
  | succ m ih =>
    obtain ⟨t, ht⟩ := everyEdgeGivesANextState s
    rw [Nat.succ_add, runEdges_succ ht, runEdges_succ ht, ih]

/-- No reset in the present cycle, when there is none in the first `k + 1` cycles of a list of which `k` are past. -/
theorem pins_rst_of_drop {s : State} {l : List HostInputs} {k : Nat} (hin : s.inputs = l.drop k)
    (hhost : ∀ p ∈ l.take (k + 1), p.rst = false) : s.pins.rst = false := by
  rw [State.pins, hin, List.headD_eq_head?_getD, List.head?_drop]
  cases h : l[k]? with
  | none => rfl
  | some p => exact hhost p (by simp [List.take_add_one, h])

/-- R51: as many edges as there is latency left pass without effect, unless one of them resets. -/
theorem runEdges_inFlight {s : State} (hbusy : s.busy = true) (hnone : s.rspValid = false) {k : Nat} (hk : k ≤ s.wait)
    (hhost : ∀ p ∈ s.inputs.take k, p.rst = false) : InFlightFrom s (runEdges k s) k := by
  induction k with
  | zero => exact ⟨⟨rfl, rfl, rfl, rfl⟩, hbusy, hnone, rfl, rfl, rfl⟩
  | succ k ih =>
    have h := ih (by omega) fun p hp => hhost p (List.take_subset_take_left _ k.le_succ hp)
    obtain ⟨n, hn⟩ : ∃ n, (runEdges k s).wait = n + 1 := ⟨(runEdges k s).wait - 1, by have := h.wait; omega⟩
    have hstep := step_of_waiting (pins_rst_of_drop h.inputs hhost) h.busy h.noResponse hn
    rw [runEdges_add, runEdges_succ hstep]
    refine ⟨h.engine, h.busy, h.noResponse, h.command, ?wait, ?inputs⟩
    case wait =>
      have := h.wait
      change n + (k + 1) = s.wait
      omega
    case inputs =>
      change (runEdges k s).inputs.tail = _
      rw [h.inputs, List.tail_drop]

/-! ## From acceptance to completion -/

/-- A word that completes, decodable or not, loads its response and keeps the block busy. -/
theorem runCommand_interfaceFrame {w : CommandWord} {s t : State} (h : runCommand w s = .next t) :
    InterfaceFrame s t := by
  obtain ⟨i, -, hrun⟩ | ⟨e, -, hrun⟩ := runCommand_cases w s
  · exact (exec_completesIn (hrun.symm.trans h)).interfaceFrame
  · cases hrun.symm.trans h
    exact ⟨rfl, rfl, rfl, rfl, rfl, rfl, rfl, rfl⟩

theorem sameEngine_trans {s t u : State} (hst : SameEngine s t) (htu : SameEngine t u) : SameEngine s u := by
  obtain ⟨hchannels, hstage, hactive, htables⟩ := hst
  obtain ⟨hchannels', hstage', hactive', htables'⟩ := htu
  exact ⟨hchannels'.trans hchannels, hstage'.trans hstage, hactive'.trans hactive, htables'.trans htables⟩

/-- R49: the state after an acceptance, in which the word is in flight with the head of the latencies to wait. -/
theorem exists_accepted {s : State} {p : HostInputs} {ps : List HostInputs} (hin : s.inputs = p :: ps)
    (hrst : p.rst = false) (hvalid : p.cmdValid = true) (hbusy : s.busy = false) (hnone : s.rspValid = false) :
    ∃ a, step s = .next a ∧ SameEngine s a ∧ a.busy = true ∧ a.rspValid = false ∧ a.command = p.cmdData ∧
      a.wait = s.latencies.headD 0 ∧ a.inputs = ps := by
  obtain rfl := pins_eq_of_inputs hin
  refine ⟨_, step_of_acceptance ((cmdReadyPort_iff s).2 ⟨hrst, hbusy⟩) hvalid, ⟨rfl, rfl, rfl, rfl⟩, rfl, hnone, rfl,
    rfl, ?_⟩
  simp [hin]

/-- R51: when no edge resets, the edge after the latency runs the word on the engine it was accepted with. -/
theorem runEdges_completion {a : State} (hbusy : a.busy = true) (hnone : a.rspValid = false)
    (hhost : ∀ p ∈ a.inputs.take (a.wait + 1), p.rst = false) :
    ∃ b, SameEngine a b ∧ b.busy = true ∧ runCommand a.command b = .next (runEdges (a.wait + 1) a) := by
  have h := runEdges_inFlight hbusy hnone le_rfl fun p hp => hhost p (List.take_subset_take_left _ (Nat.le_succ _) hp)
  have hwait : (runEdges a.wait a).wait = 0 := by
    have := h.wait
    omega
  have hcompleting : (runEdges a.wait a).Completing := ⟨pins_rst_of_drop h.inputs hhost, h.busy, h.noResponse, hwait⟩
  have hstep := step_of_completing hcompleting
  rw [h.command] at hstep
  obtain ⟨u, hu⟩ := exists_runCommand a.command (beginEdge (runEdges a.wait a))
  refine ⟨beginEdge (runEdges a.wait a), h.engine, h.busy, ?_⟩
  rw [hu, runEdges_add, runEdges_succ (hstep.trans hu)]
  rfl

/-- Settles O18: the word is accepted, its latency passes, and what completes is the word on the engine it was accepted
with, which alone determines its effect. -/
theorem acceptedCommandCompletesAfterItsLatency : Obligations.AcceptedCommandCompletesAfterItsLatency := by
  intro s p ps hin hrst hvalid hbusy hnone hhost
  obtain ⟨a, haccept, hsame, habusy, hanone, hcommand, hwait, hinputs⟩ :=
    exists_accepted hin hrst hvalid hbusy hnone
  rw [← hwait, ← hinputs] at hhost
  rw [← hwait]
  refine ⟨fun j hj hle => ?before, ?completion⟩
  case before =>
    obtain ⟨k, rfl⟩ := Nat.exists_eq_add_of_le' hj
    have hk : k ≤ a.wait := Nat.le_of_succ_le_succ hle
    have h := runEdges_inFlight habusy hanone hk fun q hq =>
      hhost q (List.take_subset_take_left _ (Nat.le_succ_of_le hk) hq)
    rw [runEdges_succ haccept]
    exact ⟨sameEngine_trans hsame h.engine, h.busy, h.noResponse⟩
  case completion =>
    obtain ⟨b, hab, hbbusy, hrun⟩ := runEdges_completion habusy hanone hhost
    obtain ⟨u, u', hu, hu', hengine, hrspBuf, hevents⟩ :=
      commandsDependOnTheEngineAlone a.command s b (sameEngine_trans hsame hab)
    obtain rfl := Host.Outcome.next.inj (hrun.symm.trans hu')
    obtain ⟨-, hbusy', -, -, -, -, -, hvalid'⟩ := runCommand_interfaceFrame hrun
    rw [runEdges_succ haccept, ← hcommand]
    exact ⟨u, hu, hengine, hrspBuf, hevents, hvalid', hbusy'.trans hbbusy⟩

end Sys2Proof.Proofs

/-! PROOF. What follows from the nearest index (`40_pitch_mapper.md` R73, R78, R79): equal entries are equally near, so
the nearest entry of a voltage that stands in the table is that voltage's lowest one; and a segment whose far end lies
on the side of `v` is entered at most half way. -/

namespace Sys2Proof.Proofs

open Sys2Proof.Machine Sys2Proof.Laws

/-! ## Repeated entries (R73) -/

theorem calDistance_congr {cal : CalTable} {i j : EntryIndex} (h : cal[i] = cal[j]) (v : Voltage) :
    calDistance cal v i = calDistance cal v j := by
  simp only [calDistance, h]

theorem calDistance_eq_zero_iff (cal : CalTable) (v : Voltage) (i : EntryIndex) :
    calDistance cal v i = 0 ↔ cal[i] = v := by
  rw [calDistance, ← BitVec.toNat_inj]
  omega

/-- No entry as near as the nearest one stands before it. -/
theorem nearestIndex_le_of_calDistance_eq {cal : CalTable} {v : Voltage} {j : EntryIndex}
    (h : calDistance cal v j = calDistance cal v (nearestIndex cal v)) : nearestIndex cal v ≤ j := by
  obtain ⟨-, hlow⟩ := isNearest_nearestIndex cal v
  exact not_lt.1 fun hlt => (hlow j hlt).ne h.symm

/-- Settles O21: equal entries are equally near, and a voltage in the table is at distance 0. -/
theorem nearestIndexMeetsARepeatedEntryFirst : Obligations.NearestIndexMeetsARepeatedEntryFirst := by
  refine fun cal v => ⟨fun j hne hrep => ?repeated, fun i hi => ?inTable⟩
  case repeated => exact (nearestIndex_le_of_calDistance_eq (calDistance_congr hrep v)).lt_of_ne hne.symm
  case inTable =>
    obtain ⟨hleast, -⟩ := isNearest_nearestIndex cal v
    have hzero : calDistance cal v (nearestIndex cal v) = 0 :=
      Nat.le_zero.1 ((hleast i).trans_eq ((calDistance_eq_zero_iff cal v i).2 hi.symm))
    exact ⟨(calDistance_eq_zero_iff ..).1 hzero, fun j hj =>
      nearestIndex_le_of_calDistance_eq (((calDistance_eq_zero_iff cal v j).2 hj).trans hzero.symm)⟩

/-- Settles O22: the scan's answer is nearest, and the response holds its note. -/
theorem mapqAnswersTheNearestNote : Obligations.MapqAnswersTheNearestNote :=
  fun _ _ _ => ⟨_, _, isNearest_nearestIndex _ _, rfl, rfl, hasFields_word _⟩

/-! ## On a breakpoint, and above a repeated entry (R78 (a), (b)) -/

/-- A frequency of the table is in range and stays as it is. -/
theorem saturateFrequency_toNat (f : Frequency) : saturateFrequency (f.toNat : Int) = (f, false) := by
  have := f.isLt
  rw [saturateFrequency_of_mem_range (by omega) (by omega)]
  simp

/-- At the entry's own voltage nothing is added to its note. -/
theorem interpolate_of_breakpoint {cal : CalTable} {v : Voltage} {idx : EntryIndex} (h : cal[idx] = v)
    (note : NoteTable) (nb : EntryIndex) : interpolate cal note v idx nb = note[idx].toNat := by
  rw [interpolate, h, Int.sub_self, Int.zero_mul, truncDiv, Int.zero_tdiv, Int.add_zero]

theorem mapSegment_freq_of_breakpoint {cal : CalTable} {v : Voltage} {idx : EntryIndex} (h : cal[idx] = v)
    (note : NoteTable) (nb : EntryIndex) : (mapSegment cal note v idx nb).freq = note[idx] := by
  by_cases hwidth : segmentWidth cal idx nb = 0
  · rw [mapSegment_of_width_eq_zero hwidth]
  · have hsat := saturateFrequency_toNat note[idx]
    rw [← interpolate_of_breakpoint h note nb] at hsat
    rw [mapSegment_of_width_ne_zero hwidth hsat]

theorem mapI_freq_of_breakpoint {cal : CalTable} {v : Voltage} (h : cal[nearestIndex cal v] = v) (note : NoteTable) :
    (mapI cal note v).freq = note[nearestIndex cal v] := by
  rw [mapI]
  by_cases hboundary : nearestIndex cal v = 0 ∨ nearestIndex cal v = 23
  · rw [mapFrom_of_boundary hboundary]
  · obtain ⟨h0, h23⟩ := not_or.1 hboundary
    rw [mapFrom_of_interior h0 h23, mapSegment_freq_of_breakpoint h]

/-- DEG says that the nearest entry is an interior one and that its neighbour repeats its voltage. -/
theorem mapI_deg {cal : CalTable} {note : NoteTable} {v : Voltage} (h : (mapI cal note v).flags.deg = true) :
    nearestIndex cal v ≠ 0 ∧ nearestIndex cal v ≠ 23 ∧
      cal[neighbour cal v (nearestIndex cal v)] = cal[nearestIndex cal v] := by
  rw [mapI] at h
  by_cases hboundary : nearestIndex cal v = 0 ∨ nearestIndex cal v = 23
  · rw [mapFrom_of_boundary hboundary] at h
    cases h
  · obtain ⟨h0, h23⟩ := not_or.1 hboundary
    rw [mapFrom_of_interior h0 h23] at h
    refine ⟨h0, h23, ?_⟩
    by_cases hwidth : segmentWidth cal (nearestIndex cal v) (neighbour cal v (nearestIndex cal v)) = 0
    · rw [segmentWidth] at hwidth
      exact BitVec.eq_of_toNat_eq (by omega)
    · rw [mapSegment_of_width_ne_zero hwidth rfl] at h
      cases h

/-- Settles O24: a repeated neighbour stands above, because the nearest entry is the lowest of its voltage. -/
theorem mapiIsExactOnABreakpoint : Obligations.MapiIsExactOnABreakpoint := by
  refine fun cal note v => ⟨fun h => mapI_freq_of_breakpoint h note, fun hdeg => ?_⟩
  obtain ⟨h0, h23, hrep⟩ := mapI_deg hdeg
  obtain ⟨habove, hval⟩ | ⟨-, hval⟩ := neighbour_cases cal v (nearestIndex cal v) h0 h23
  · exact ⟨habove, _, hval, hrep⟩
  · have hle := nearestIndex_le_of_calDistance_eq (calDistance_congr hrep v)
    rw [Fin.le_def] at hle
    omega

/-! ## Half a segment (R78 (c)) -/

/-- The quotient of R77 for an offset `x` into a segment of width `den`, of which it covers at most half: it has the
sign of the note difference `dn` and at most half its size. -/
theorem truncDiv_within_half {x den : Int} (dn : Int) (hside : 0 ≤ x * den) (hhalf : 2 * x.natAbs ≤ den.natAbs) :
    0 ≤ truncDiv (x * dn) den * dn ∧ 2 * (truncDiv (x * dn) den).natAbs ≤ dn.natAbs := by
  constructor
  · have hsign : Int.sign (x * dn * den) * dn = Int.sign (x * den) * |dn| := by
      rw [mul_right_comm, Int.sign_mul, mul_assoc, Int.sign_mul_self_eq_abs]
    rw [truncDiv_eq, mul_right_comm, hsign]
    exact mul_nonneg (mul_nonneg (Int.sign_nonneg_iff.2 hside) (abs_nonneg dn)) (Int.natCast_nonneg _)
  · rw [truncDiv, Int.natAbs_tdiv, Int.natAbs_mul]
    calc 2 * (x.natAbs * dn.natAbs / den.natAbs)
        ≤ 2 * (x.natAbs * dn.natAbs) / den.natAbs := Nat.mul_div_le_mul_div_assoc ..
      _ ≤ den.natAbs * dn.natAbs / den.natAbs :=
          Nat.div_le_div_right (by rw [← mul_assoc]; exact Nat.mul_le_mul_right _ hhalf)
      _ ≤ dn.natAbs := Nat.div_le_of_le_mul le_rfl

/-- From the entry to a neighbour on `v`'s side, `v` lies at most half way: it is no nearer to the neighbour. -/
theorem offset_within_half {cal : CalTable} {v : Voltage} {idx nb : EntryIndex}
    (hleast : calDistance cal v idx ≤ calDistance cal v nb)
    (habove : cal[idx].toNat < v.toNat → cal[idx].toNat < cal[nb].toNat)
    (hbelow : v.toNat ≤ cal[idx].toNat → cal[nb].toNat < cal[idx].toNat) :
    segmentWidth cal idx nb ≠ 0 ∧ 0 ≤ ((v.toNat : Int) - cal[idx].toNat) * segmentWidth cal idx nb ∧
      2 * ((v.toNat : Int) - cal[idx].toNat).natAbs ≤ (segmentWidth cal idx nb).natAbs := by
  unfold calDistance at hleast
  unfold segmentWidth
  rcases Nat.lt_or_ge cal[idx].toNat v.toNat with hv | hv
  · have hnb := habove hv
    exact ⟨by omega, mul_nonneg (by omega) (by omega), by omega⟩
  · have hnb := hbelow hv
    exact ⟨by omega, mul_nonneg_of_nonpos_of_nonpos (by omega) (by omega), by omega⟩

/-- A step from `n` toward `m` by at most half their distance stays between them. -/
theorem add_within_of_half {n m q : Int} (hsign : 0 ≤ q * (m - n)) (hhalf : 2 * q.natAbs ≤ (m - n).natAbs) :
    min n m ≤ n + q ∧ n + q ≤ max n m := by
  rcases lt_trichotomy (m - n) 0 with hneg | hzero | hpos
  · have hq : q ≤ 0 := nonpos_of_mul_nonneg_left hsign hneg
    omega
  · omega
  · have hq : 0 ≤ q := nonneg_of_mul_nonneg_left hsign hpos
    omega

/-- R77: an exact value that the register holds is the frequency, with no flag. -/
theorem mapSegment_of_mem_range {cal : CalTable} {note : NoteTable} {v : Voltage} {idx nb : EntryIndex} {r : Int}
    (hwidth : segmentWidth cal idx nb ≠ 0) (hr : interpolate cal note v idx nb = r) (hnonneg : 0 ≤ r)
    (hle : r ≤ 2 ^ 32 - 1) :
    (mapSegment cal note v idx nb).flags = { bnd := false, sat := false, deg := false } ∧
      ((mapSegment cal note v idx nb).freq.toNat : Int) = r := by
  subst hr
  rw [mapSegment_of_width_ne_zero hwidth (saturateFrequency_of_mem_range hnonneg hle)]
  refine ⟨rfl, ?_⟩
  rw [BitVec.toNat_ofNat]
  omega

/-- Settles O25: the quotient is at most half the note difference, so the sum lies between two notes and the register
holds it. -/
theorem mapiStaysWithinHalfASegment : Obligations.MapiStaysWithinHalfASegment := by
  rintro cal note v idx nb rfl h0 h23 rfl habove hbelow
  rw [mapI, mapFrom_of_interior h0 h23]
  obtain ⟨hleast, -⟩ := isNearest_nearestIndex cal v
  generalize nearestIndex cal v = idx at *
  generalize neighbour cal v idx = nb at *
  obtain ⟨hwidth, hside, hoffset⟩ := offset_within_half (hleast nb) habove hbelow
  obtain ⟨hsign, hhalf⟩ := truncDiv_within_half ((note[nb].toNat : Int) - note[idx].toNat) hside hoffset
  obtain ⟨hlow, hhigh⟩ := add_within_of_half hsign hhalf
  obtain ⟨hflags, hfreq⟩ := mapSegment_of_mem_range (note := note) hwidth rfl (le_trans (by omega) hlow)
    (hhigh.trans (by omega))
  rw [hflags, hfreq, interpolate, add_sub_cancel_left]
  exact ⟨rfl, hsign, hhalf⟩

end Sys2Proof.Proofs

/-! PROOF. The shape of the envelope (`41_adsr_envelope.md` R84 to R90). At a boundary of its phase each formula divides
a common factor out and leaves the level of ML or SU; within its phase it is a mean of levels, so nominal levels need no
clamp. -/

namespace Sys2Proof.Proofs

open Sys2Proof.Machine Sys2Proof.Laws

/-! ## The four joins (R90 (a)) -/

theorem attackRaw_at_end {p : ParamSet} (h : 0 < p.attack.toNat) :
    attackRaw p p.attack.toNat = p.maxLevel.toNat * 65535 / 1000 := by
  rw [attackRaw, mul_assoc, Nat.mul_div_mul_left _ _ h]

theorem decayRaw_at_start {p : ParamSet} (h : 0 < p.decay.toNat) :
    decayRaw p 0 = p.maxLevel.toNat * 65535 / 1000 := by
  rw [decayRaw, Nat.sub_zero, Nat.mul_zero, Nat.add_zero, mul_right_comm, mul_comm _ p.decay.toNat,
    Nat.mul_div_mul_left _ _ h]

theorem decayRaw_at_end {p : ParamSet} (h : 0 < p.decay.toNat) :
    decayRaw p p.decay.toNat = p.sustain.toNat * 65535 / 1000 := by
  rw [decayRaw, Nat.sub_self, Nat.mul_zero, Nat.zero_add, mul_right_comm, mul_comm _ p.decay.toNat,
    Nat.mul_div_mul_left _ _ h]

theorem releaseRaw_at_start {p : ParamSet} (h : 0 < p.release.toNat) :
    releaseRaw p 0 = p.sustain.toNat * 65535 / 1000 := by
  rw [releaseRaw, Nat.sub_zero, mul_comm _ p.release.toNat, Nat.mul_div_mul_left _ _ h]

/-- Settles O27: the phase at each boundary, and the formula of that phase there. -/
theorem envelopeJoinsAtPhaseBoundaries : Obligations.EnvelopeJoinsAtPhaseBoundaries := by
  rintro p ⟨hattack, hdecay, hrelease⟩
  refine ⟨fun e he => noteOnLevel_of_attack he, attackRaw_at_end hattack, ?attackDecay, fun d hd => ?decay,
    decayRaw_at_end hdecay, noteOnLevel_of_sustain le_rfl, ?sustainRelease, fun e he => noteOffLevel_of_idle he⟩
  case attackDecay =>
    rw [noteOnLevel_of_decay le_rfl (Nat.lt_add_of_pos_right hdecay), Nat.sub_self, decayRaw_at_start hdecay]
  case decay =>
    rw [noteOnLevel_of_decay (Nat.le_add_right ..) (Nat.add_lt_add_left hd _), Nat.add_sub_cancel_left]
  case sustainRelease => rw [noteOffLevel_of_release hrelease, releaseRaw_at_start hrelease]

/-! ## Monotone phases (R84, R87) -/

theorem attackRaw_mono (p : ParamSet) {e e' : Nat} (h : e ≤ e') : attackRaw p e ≤ attackRaw p e' :=
  Nat.div_le_div_right (Nat.mul_le_mul_right _ (Nat.mul_le_mul_right _ h))

theorem releaseRaw_anti (p : ParamSet) {e e' : Nat} (h : e ≤ e') : releaseRaw p e' ≤ releaseRaw p e :=
  Nat.div_le_div_right (Nat.mul_le_mul_left _ (Nat.sub_le_sub_left h _))

/-- Settles O28: each formula is monotone, and after the release the level is 0. -/
theorem attackRisesAndReleaseFalls : Obligations.AttackRisesAndReleaseFalls := by
  refine fun p e e' h => ⟨fun he' => ?attack, ?release⟩
  case attack =>
    rw [noteOnLevel_of_attack (h.trans_lt he'), noteOnLevel_of_attack he']
    exact attackRaw_mono p h
  case release =>
    rcases Nat.lt_or_ge e' p.release.toNat with he' | he'
    · rw [noteOffLevel_of_release he', noteOffLevel_of_release (h.trans_lt he')]
      exact releaseRaw_anti p h
    · rw [noteOffLevel_of_idle he']
      exact Nat.zero_le _

/-! ## Nominal levels (R89) -/

/-- A formula of the envelope with divisor `n * 1000` stays in range when its numerator is at most full scale. -/
theorem raw_le_of_level_le {level n : Nat} (h : level ≤ n * 1000) : level * 65535 / (n * 1000) ≤ 65535 :=
  Nat.div_le_of_le_mul (Nat.mul_le_mul_right _ h)

section
variable {p : ParamSet} {e : Nat}

theorem attackRaw_le (hml : p.maxLevel.toNat ≤ 1000) (he : e < p.attack.toNat) : attackRaw p e ≤ 65535 :=
  raw_le_of_level_le (Nat.mul_le_mul he.le hml)

/-- DECAY is a weighted mean of ML and SU. -/
theorem decayRaw_le (hml : p.maxLevel.toNat ≤ 1000) (hsu : p.sustain.toNat ≤ 1000) {d : Nat} (hd : d < p.decay.toNat) :
    decayRaw p d ≤ 65535 := by
  refine raw_le_of_level_le ?_
  calc p.maxLevel.toNat * (p.decay.toNat - d) + p.sustain.toNat * d
      ≤ 1000 * (p.decay.toNat - d) + 1000 * d :=
        Nat.add_le_add (Nat.mul_le_mul_right _ hml) (Nat.mul_le_mul_right _ hsu)
    _ = p.decay.toNat * 1000 := by omega

theorem sustainRaw_le (hsu : p.sustain.toNat ≤ 1000) : sustainRaw p ≤ 65535 :=
  raw_le_of_level_le (n := 1) (by omega)

theorem releaseRaw_le (hsu : p.sustain.toNat ≤ 1000) : releaseRaw p e ≤ 65535 := by
  rw [releaseRaw, mul_right_comm]
  refine raw_le_of_level_le ?_
  rw [mul_comm p.release.toNat]
  exact Nat.mul_le_mul hsu (Nat.sub_le _ _)

theorem noteOnLevel_le (hml : p.maxLevel.toNat ≤ 1000) (hsu : p.sustain.toNat ≤ 1000) :
    (noteOnLevel p e).1 ≤ 65535 := by
  rcases Nat.lt_or_ge e p.attack.toNat with hattack | hattack
  · rw [noteOnLevel_of_attack hattack]
    exact attackRaw_le hml hattack
  · rcases Nat.lt_or_ge e (p.attack.toNat + p.decay.toNat) with hdecay | hdecay
    · rw [noteOnLevel_of_decay hattack hdecay]
      exact decayRaw_le hml hsu (by omega)
    · rw [noteOnLevel_of_sustain hdecay]
      exact sustainRaw_le hsu

theorem noteOffLevel_le (hsu : p.sustain.toNat ≤ 1000) : (noteOffLevel p e).1 ≤ 65535 := by
  rcases Nat.lt_or_ge e p.release.toNat with hrelease | hrelease
  · rw [noteOffLevel_of_release hrelease]
    exact releaseRaw_le hsu
  · rw [noteOffLevel_of_idle hrelease]
    exact Nat.zero_le _

end

/-- Settles O29: every phase stays in range, and in range the clamp does nothing. -/
theorem amplitudeIsClampedOnlyAboveNominal : Obligations.AmplitudeIsClampedOnlyAboveNominal := by
  intro x t p hml hsu
  have hraw : (rawLevel x t p).1 ≤ 65535 := by
    cases hon : x.onV with
    | true =>
      rw [rawLevel_of_noteOn hon]
      exact noteOnLevel_le hml hsu
    | false =>
      cases hoff : x.offV with
      | true =>
        rw [rawLevel_of_noteOff hon hoff]
        exact noteOffLevel_le hsu
      | false =>
        rw [rawLevel_of_no_timestamp hon hoff]
        exact Nat.zero_le _
  exact ⟨hraw, (envLevel_amp_toNat x t p).trans (Nat.min_eq_left hraw)⟩

end Sys2Proof.Proofs

/-! PROOF. What TICK leaves alone and what it shows (`42_gate_and_pwm.md` R100, R101, `20_memory.md` R50,
`30_encoding.md` R69). Commands that act through different channels commute; the level of a tick depends on the
timestamps of its gate update alone, which settles the default scenario for every content of the tables. -/

namespace Sys2Proof.Proofs

open Sys2Proof.Machine Sys2Proof.Laws

/-! ## The frame and the order of ticks -/

/-- Settles O35: TICK replaces its own channel and completes. -/
theorem tickFrame : Obligations.TickFrame := fun c v t s =>
  ⟨_, exec_tick c v t s, fun _ hd => afterTick_chan_ne hd v t s, rfl, rfl, (CompletesIn.tick c v t s).interfaceFrame⟩

/-- Commands that act through different channels commute, and neither changes the answer of the other. -/
theorem exec_comm_of_actsThroughChannel {i j : Instr} {c d : Channel} (hi : ActsThroughChannel i c)
    (hj : ActsThroughChannel j d) (hcd : c ≠ d) (s : State) :
    ∃ s1 s2 s3 s4, exec i s = .next s1 ∧ exec j s1 = .next s2 ∧ exec j s = .next s3 ∧ exec i s3 = .next s4 ∧
      SameEngine s2 s4 ∧ s1.rspBuf = s4.rspBuf ∧ s1.events = s4.events ∧ s2.rspBuf = s3.rspBuf ∧
      s2.events = s3.events := by
  obtain ⟨f, hf⟩ := hi
  obtain ⟨g, hg⟩ := hj
  have hj1 := hg (complete (s.setChan c (f (s.chan c) s.tables s.active).chan) (f (s.chan c) s.tables s.active).response
    (f (s.chan c) s.tables s.active).events)
  have hi3 := hf (complete (s.setChan d (g (s.chan d) s.tables s.active).chan) (g (s.chan d) s.tables s.active).response
    (g (s.chan d) s.tables s.active).events)
  simp only [complete_chan, complete_tables, complete_active, setChan_tables, setChan_active, setChan_chan_ne s _ hcd,
    setChan_chan_ne s _ hcd.symm] at hj1 hi3
  refine ⟨_, _, _, _, hf s, hj1, hg s, hi3, ⟨?_, rfl, rfl, rfl⟩, rfl, rfl, rfl, rfl⟩
  simp only [complete_channels, setChan_channels]
  exact Vector.set_comm _ _ (Fin.val_ne_of_ne hcd.symm)

/-- Settles O37: TICK acts through its channel. -/
theorem ticksOfDifferentChannelsCommute : Obligations.TicksOfDifferentChannelsCommute := fun c d v w t u s hcd =>
  exec_comm_of_actsThroughChannel (tick_actsThroughChannel c v t) (tick_actsThroughChannel d w u) hcd s

/-! ## The level of a tick, from its gate update -/

section
variable {c : Channel} {v : Voltage} {t : Time} {s : State}

/-- The level reads the timestamps, which the frequency and duty drives keep. -/
theorem afterTick_rawLevel (c : Channel) (v : Voltage) (t : Time) (s : State) :
    rawLevel ((afterTick c v t s).chan c) t s.active = rawLevel (gateUpdate (s.chan c) v t).chan t s.active := by
  obtain ⟨-, honV, honT, hoffV, hoffT⟩ := afterTick_gate_and_timestamps c v t s
  simp only [rawLevel, honV, honT, hoffV, hoffT]

/-- A tick answers the phase, the amplitude and the duty of the level after its gate update, and writes the duty. -/
theorem tick_answers_level {raw : Nat} {ph : EnvPhase}
    (h : rawLevel (gateUpdate (s.chan c) v t).chan t s.active = (raw, ph)) :
    rspDataField (afterTick c v t s).rspBuf =
        clampAmplitude raw ++ pwmDuty (clampAmplitude raw) s.active.dutyCycle ∧
      rspPhase (afterTick c v t s).rspBuf = phaseCode ph ∧
      ((afterTick c v t s).chan c).dutyOut = pwmDuty (clampAmplitude raw) s.active.dutyCycle := by
  obtain ⟨-, -, -, hphase, -, -, -, -, -, -, -, -, hdata⟩ := afterTick_hasFields c v t s
  have hlevel : envLevel ((afterTick c v t s).chan c) t s.active = { amp := clampAmplitude raw, phase := ph } := by
    rw [envLevel, afterTick_rawLevel, h]
  rw [hdata, hphase, afterTick_dutyOut, hlevel]
  exact ⟨rfl, rfl, rfl⟩

end

/-! ## The default scenario (R101 (a)) -/

section
variable {c : Channel} {s : State} (hactive : s.active = .activeReset)
include hactive

/-- The note begins: 0 in ATTACK. -/
theorem default_tick_opens (hgate : (s.chan c).gate = false) :
    ∃ s', exec (.tick c 5600 0) s = .next s' ∧ s'.active = .activeReset ∧ (s'.chan c).gate = true ∧
      rspDataField s'.rspBuf = 0#32 ∧ rspPhase s'.rspBuf = 1#3 := by
  have hupdate := gateUpdate_of_opening (v := 5600) hgate (by decide) 0
  have hlevel : rawLevel (gateUpdate (s.chan c) 5600 0).chan 0 s.active = (0, .attack) := by
    rw [hupdate, hactive, rawLevel_of_noteOn rfl]
    exact (by decide : noteOnLevel .activeReset (elapsedMs 0 0) = (0, .attack))
  obtain ⟨hdata, hphase, -⟩ := tick_answers_level hlevel
  obtain ⟨hgate', -⟩ := afterTick_gate_and_timestamps c 5600 0 s
  rw [hupdate] at hgate'
  rw [hactive] at hdata
  exact ⟨_, exec_tick .., hactive, hgate', hdata, hphase⟩

/-- The note ends at 400: the level of SU, 13107, in RELEASE. -/
theorem default_tick_closes (hgate : (s.chan c).gate = true) :
    ∃ s', exec (.tick c 0 400) s = .next s' ∧ s'.active = .activeReset ∧ (s'.chan c).gate = false ∧
      (s'.chan c).onV = false ∧ (s'.chan c).offV = true ∧ (s'.chan c).offT = 400 ∧
      rspDataField s'.rspBuf = 0x33330F5C#32 ∧ rspPhase s'.rspBuf = 4#3 ∧ (s'.chan c).dutyOut = 3932#16 := by
  have hupdate := gateUpdate_of_closing (v := 0) hgate (by decide) 400
  have hlevel : rawLevel (gateUpdate (s.chan c) 0 400).chan 400 s.active = (13107, .release) := by
    rw [hupdate, hactive, rawLevel_of_noteOff rfl rfl]
    exact (by decide : noteOffLevel .activeReset (elapsedMs 400 400) = (13107, .release))
  obtain ⟨hdata, hphase, hduty⟩ := tick_answers_level hlevel
  obtain ⟨hgate', honV, -, hoffV, hoffT⟩ := afterTick_gate_and_timestamps c 0 400 s
  rw [hupdate] at hgate' honV hoffV hoffT
  rw [hactive] at hdata hduty
  exact ⟨_, exec_tick .., hactive, hgate', honV, hoffV, hoffT, hdata, hphase, hduty⟩

/-- The release is over at 800: 0 in IDLE. -/
theorem default_tick_silent (hgate : (s.chan c).gate = false) (hon : (s.chan c).onV = false)
    (hoff : (s.chan c).offV = true) (hoffT : (s.chan c).offT = 400) :
    ∃ s', exec (.tick c 0 800) s = .next s' ∧ rspDataField s'.rspBuf = 0#32 ∧ rspPhase s'.rspBuf = 0#3 ∧
      (s'.chan c).dutyOut = 0#16 := by
  have hupdate := gateUpdate_of_no_edge (x := s.chan c) (v := 0) (iff_of_false (by simp [hgate]) (by decide)) 800
  have hlevel : rawLevel (gateUpdate (s.chan c) 0 800).chan 800 s.active = (0, .idle) := by
    rw [hupdate, hactive, rawLevel_of_noteOff hon hoff, hoffT]
    decide
  obtain ⟨hdata, hphase, hduty⟩ := tick_answers_level hlevel
  rw [hactive] at hdata hduty
  exact ⟨_, exec_tick .., hdata, hphase, hduty⟩

end

/-- Settles O36: each tick reads the gate and the timestamps that the tick before it left; the tables set only the
frequency. -/
theorem tickPlaysTheDefaultScenario : Obligations.TickPlaysTheDefaultScenario := by
  intro tables
  obtain ⟨s1, hexec1, hactive1, hgate1, hdata1, hphase1⟩ :=
    default_tick_opens (c := 0) (s := { State.reset with tables := tables }) rfl rfl
  obtain ⟨s2, hexec2, hactive2, hgate2, hon2, hoff2, hoffT2, hdata2, hphase2, hduty2⟩ :=
    default_tick_closes hactive1 hgate1
  obtain ⟨s3, hexec3, hdata3, hphase3, hduty3⟩ := default_tick_silent hactive2 hgate2 hon2 hoff2 hoffT2
  exact ⟨s1, s2, s3, hexec1, hexec2, hexec3, hdata1, hphase1, hdata2, hphase2, hduty2, hdata3, hphase3, hduty3⟩

/-! ## NOTEOFF (R69) -/

/-- A program that begins with the encoding of a command runs that command first. -/
theorem runWords_encode_cons {i : Instr} (hwf : i.WellFormed) {s t : State} (h : exec i s = .next t)
    (ws : List CommandWord) : runWords (encode i :: ws) s = runWords ws t := by
  simp only [runWords, runCommand_of_ok (decodeOfEncode i hwf), h]

theorem runWords_noteoff (c : Channel) (t : Time) (s : State) :
    runWords (pseudoWords (.noteoff c t)) s = afterTick c 0#16 t s :=
  runWords_encode_cons (i := .tick c 0#16 t) rfl (exec_tick c 0#16 t s) []

/-- Settles O38: NOTEOFF is a TICK at voltage 0, below the threshold. -/
theorem noteoffClosesTheGate : Obligations.NoteoffClosesTheGate := by
  intro c t s
  rw [runWords_noteoff]
  obtain ⟨hgate', -, -, -, hoffT⟩ := afterTick_gate_and_timestamps c 0#16 t s
  have hbelow : (0#16).toNat < 983 := by decide
  rw [hgate', hoffT]
  cases hgate : (s.chan c).gate with
  | true =>
    rw [gateUpdate_of_closing hgate hbelow]
    exact ⟨rfl, fun _ => rfl⟩
  | false =>
    rw [gateUpdate_of_no_edge (iff_of_false (by simp [hgate]) hbelow.not_ge)]
    exact ⟨hgate, nofun⟩

/-! ## The output ports after a tick (R50, R100) -/

/-- R98: what the map answers in the slide mode is what MAPQ or MAPI answers. -/
theorem query_answers_pitchMap (c : Channel) (v : Voltage) (s : State) :
    ∃ q, exec (if s.active.slideMode = .quantized then .mapq c v else .mapi c v) s = .next q ∧
      rspDataField q.rspBuf = (pitchMap (s.calTable c) s.tables.note s.active.slideMode v).freq := by
  cases hmode : s.active.slideMode with
  | quantized => exact ⟨_, rfl, rspDataField_word _⟩
  | interpolated => exact ⟨_, rfl, rspDataField_word _⟩

theorem append_amplitude_halves (a b : Amplitude) :
    (a ++ b).toNat / 65536 = a.toNat ∧ (a ++ b).toNat % 65536 = b.toNat := by
  have := b.isLt
  rw [toNat_append_amplitude]
  omega

section
variable (c : Channel) (v : Voltage) (t : Time) (s : State)

theorem afterTick_freqOut_of_open (hv : 983 ≤ v.toNat) :
    ((afterTick c v t s).chan c).freqOut = (pitchMap (s.calTable c) s.tables.note s.active.slideMode v).freq := by
  obtain ⟨hfreq, -⟩ := afterTick_frequency c v t s
  rw [hfreq, pitchOfTick_of_open hv]
  rfl

theorem afterTick_freqOut_of_closed (hv : v.toNat < 983) :
    ((afterTick c v t s).chan c).freqOut = (s.chan c).freqOut := by
  obtain ⟨hfreq, -⟩ := afterTick_frequency c v t s
  obtain ⟨hkeep, -⟩ := gateUpdate_keeps_outputs (s.chan c) v t
  rw [hfreq, pitchOfTick_of_closed hv]
  exact hkeep

/-- DATA of a tick is the amplitude above the duty, and the duty is computed from that amplitude (R99, R100). -/
theorem afterTick_duty_of_data :
    ((afterTick c v t s).chan c).dutyOut.toNat = (rspDataField (afterTick c v t s).rspBuf).toNat % 65536 ∧
      ((afterTick c v t s).chan c).dutyOut.toNat =
        min ((rspDataField (afterTick c v t s).rspBuf).toNat / 65536 * s.active.dutyCycle.toNat / 1000) 65535 := by
  obtain ⟨-, -, -, -, -, -, -, -, -, -, -, -, hdata⟩ := afterTick_hasFields c v t s
  obtain ⟨hhigh, hlow⟩ := append_amplitude_halves (envLevel ((afterTick c v t s).chan c) t s.active).amp
    ((afterTick c v t s).chan c).dutyOut
  rw [hdata, hhigh, hlow]
  exact ⟨rfl, by rw [afterTick_dutyOut, pwmDuty_toNat]⟩

/-- The pulses after a tick, while `rst` is low: `duty_set` of its channel, and its `freq_set` when the gate is open. -/
theorem afterTick_pulses (hrst : (afterTick c v t s).pins.rst = false) (d : Channel) :
    (dutySetPort (afterTick c v t s) d = true ↔ d = c) ∧
      (freqSetPort (afterTick c v t s) d = true ↔ d = c ∧ 983 ≤ v.toNat) := by
  have hevents := afterTick_events c v t s
  by_cases hv : 983 ≤ v.toNat
  · rw [pitchOfTick_of_open hv] at hevents
    obtain ⟨hfreq, hduty⟩ := pulses_of_open_tick hevents hrst d
    simp [hfreq, hduty, hv, eq_comm]
  · rw [pitchOfTick_of_closed (Nat.not_le.1 hv)] at hevents
    obtain ⟨hfreq, hduty⟩ := pulses_of_closed_tick hevents hrst d
    simp [hfreq, hduty, hv, eq_comm]

end

/-- Settles O51: the completing edge runs the tick; the ports show its channel's registers and its events, and the next
edge leaves no event. -/
theorem tickShowsOnTheOutputPorts : Obligations.TickShowsOnTheOutputPorts := by
  intro s c v tm hcompleting hdecode
  have hstep : step s = .next (afterTick c v tm (beginEdge s)) :=
    (stepRunsTheDecodedCommand s _ hcompleting hdecode).trans (exec_tick c v tm _)
  obtain ⟨hlow, hduty⟩ := afterTick_duty_of_data c v tm (beginEdge s)
  refine ⟨_, hstep, fun _ => ⟨rfl, rfl⟩, hlow, hduty, fun hv => ?opened, fun hv => ?closed, fun d hd => ?others,
    fun hrst => afterTick_pulses c v tm _ hrst, fun u hu d => ?after⟩
  case opened =>
    obtain ⟨q, hq, hdata⟩ := query_answers_pitchMap c v s
    exact ⟨q, hq, (afterTick_freqOut_of_open c v tm _ hv).trans hdata.symm⟩
  case closed => exact afterTick_freqOut_of_closed c v tm _ hv
  case others =>
    have hchan : (afterTick c v tm (beginEdge s)).chan d = s.chan d := afterTick_chan_ne hd v tm _
    simp only [freqOutPort, dutyOutPort, hchan, and_self]
  case after => exact (pulses_of_no_events (events_of_step_of_rspValid rfl hu) d).symm

end Sys2Proof.Proofs

/-! PROOF. The parameter sets and the readback (`43_parameters.md` R102 to R108, `44_readback.md` R109 to R111,
`20_memory.md` R43). A field write is known by the fields it leaves; LOADP is a run of seven such writes and an
APPLY. -/

namespace Sys2Proof.Proofs

open Sys2Proof.Machine Sys2Proof.Laws

/-! ## Writing one field (R104) -/

theorem exec_setp (f : ParamField) (v : Param) (s : State) :
    exec (.setp f v) s =
      .next (complete { s with stage := s.stage.setField f v } (dataResponse 0x10#6 0#32) []) := rfl

/-- The slide mode of a value is its bit 0. -/
theorem slideModeBits_ofBits (v : Param) : slideModeBits (slideModeOfBits v) = v &&& 1#16 := by
  rw [BitVec.and_one_eq_setWidth_ofBool_getLsbD, slideModeOfBits]
  cases v.getLsbD 0 <;> rfl

theorem setField_field (p : ParamSet) (f : ParamField) (v : Param) :
    (p.setField f v).field f = if f = .sm then v &&& 1#16 else v := by
  by_cases hf : f = .sm
  · rw [if_pos hf, hf]
    exact slideModeBits_ofBits v
  · rw [if_neg hf, setField_field_same p v hf]

/-- Settles O39: STAGE with the field written, and the response. -/
theorem setpWritesOneStageField : Obligations.SetpWritesOneStageField := fun f v s =>
  ⟨_, exec_setp f v s, setField_field s.stage f v, fun _ hg => setField_field_ne s.stage v hg, rfl, rfl, rfl,
    interfaceFrame_of_parameter_write s _ s.active _ _, hasFields_word _⟩

theorem setField_setField (p : ParamSet) (f : ParamField) (v : Param) :
    (p.setField f v).setField f v = p.setField f v := by
  cases f <;> rfl

/-- Settles O41: a field written twice is written once, and STAGE stays as APPLY derives from it. -/
theorem setpAndApplyAreIdempotent : Obligations.SetpAndApplyAreIdempotent := by
  rintro i s t u (rfl | ⟨f, v, rfl⟩) ht hu
  · cases ht
    cases hu
    exact ⟨⟨rfl, rfl, rfl, rfl⟩, rfl⟩
  · cases ht
    cases hu
    exact ⟨⟨rfl, setField_setField s.stage f v, rfl, rfl⟩, rfl⟩

/-! ## LOADP (R69, R102) -/

/-- The slide mode of a legal value (R62 (e)). -/
theorem slideModeOfBits_of_le_one {v : Param} (h : v.toNat ≤ 1) :
    slideModeOfBits v = if v = 1#16 then .interpolated else .quantized := by
  obtain rfl | rfl : v = 0#16 ∨ v = 1#16 := by
    rw [← BitVec.toNat_inj, ← BitVec.toNat_inj]
    exact Nat.le_one_iff_eq_zero_or_eq_one.1 h
  · rfl
  · rfl

/-- The words of a list of SETPs. -/
def setpWords (writes : List (ParamField × Param)) : List CommandWord :=
  writes.map fun w => encode (.setp w.1 w.2)

/-- A parameter set after a list of field writes. -/
def writeFields (p : ParamSet) (writes : List (ParamField × Param)) : ParamSet :=
  writes.foldl (fun q w => q.setField w.1 w.2) p

/-- SETPs and then APPLY: the writes reach STAGE in order, and ACTIVE is derived from the result. -/
theorem runWords_setpWords_apply (writes : List (ParamField × Param))
    (hwf : ∀ w ∈ writes, (Instr.setp w.1 w.2).WellFormed) (s : State) :
    SameEngine { s with stage := writeFields s.stage writes, active := derive (writeFields s.stage writes) }
      (runWords (setpWords writes ++ [encode .apply]) s) := by
  induction writes generalizing s with
  | nil =>
    rw [setpWords, List.map_nil, List.nil_append, runWords_encode_cons rfl (exec_apply s)]
    exact ⟨rfl, rfl, rfl, rfl⟩
  | cons w ws ih =>
    obtain ⟨hw, hws⟩ := List.forall_mem_cons.1 hwf
    rw [setpWords, List.map_cons, List.cons_append, runWords_encode_cons hw (exec_setp w.1 w.2 s)]
    exact ih hws _

/-- Settles O42: LOADP is seven writes, one for each field, which leave nothing of the old STAGE, and APPLY. -/
theorem loadpLoadsThePatch : Obligations.LoadpLoadsThePatch := by
  intro ml dc sm att de su re s hsm
  have hwf : ∀ w ∈ [(ParamField.ml, ml), (.dc, dc), (.sm, sm), (.att, att), (.de, de), (.su, su), (.re, re)],
      (Instr.setp w.1 w.2).WellFormed := by
    simp [Instr.WellFormed, Instr.wellFormed, hsm]
  obtain ⟨hchannels, hstage, hactive, -⟩ := runWords_setpWords_apply _ hwf s
  refine ⟨hchannels, ?_, hactive.trans (congrArg derive hstage.symm)⟩
  rw [← slideModeOfBits_of_le_one hsm]
  exact hstage

/-! ## Reading parameters back (R107, R108) -/

/-- The times of a ready set are not 0, also not zero-extended. -/
theorem time_field_ne_zero {p : ParamSet} (hready : p.EngineReady) {f : ParamField}
    (hf : f ∈ [ParamField.att, .de, .re]) : (p.field f).setWidth 32 ≠ 0#32 := by
  have hpos : 1 ≤ (p.field f).toNat := by
    obtain ⟨hattack, hdecay, hrelease⟩ := hready
    fin_cases hf
    exacts [hattack, hdecay, hrelease]
  have hlt := (p.field f).isLt
  rw [ne_eq, ← BitVec.toNat_inj, BitVec.toNat_setWidth, Nat.mod_eq_of_lt (by omega)]
  exact Nat.one_le_iff_ne_zero.1 hpos

/-- Settles O43: the response holds the field, and of a ready ACTIVE the times are not 0. -/
theorem parameterReadsAnswerTheField : Obligations.ParameterReadsAnswerTheField := fun _ _ =>
  ⟨⟨_, rfl, rfl, hasFields_word _⟩, ⟨_, rfl, rfl, hasFields_word _⟩, fun hready hf =>
    ⟨_, rfl, (rspDataField_word _).trans_ne (time_field_ne_zero hready hf)⟩⟩

/-! ## Channels and tables (R109 to R111) -/

/-- R109: the status view as a number, GATE at bit 0 up to FVALID at bit 3. -/
theorem statusBits_toNat (x : ChannelState) :
    (x.statusBits.setWidth 32).toNat = x.gate.toNat + 2 * x.onV.toNat + 4 * x.offV.toNat + 8 * x.fvalid.toNat := by
  have h : ∀ gate onV offV fvalid : Bool,
      ((BitVec.ofBool fvalid ++ BitVec.ofBool offV ++ BitVec.ofBool onV ++ BitVec.ofBool gate).setWidth 32).toNat =
        gate.toNat + 2 * onV.toNat + 4 * offV.toNat + 8 * fvalid.toNat := by decide
  exact h x.gate x.onV x.offV x.fvalid

/-- R109: the duty view is the register, zero-extended. -/
theorem dutyView_toNat (x : ChannelState) : (x.view .duty).toNat = x.dutyOut.toNat := by
  have := x.dutyOut.isLt
  simp only [ChannelState.view, BitVec.toNat_setWidth]
  omega

/-- Settles O44: the response holds the view, and each view is its register. -/
theorem rdchAnswersTheView : Obligations.RdchAnswersTheView := by
  refine fun c view s => ⟨_, (s.chan c).view view, rfl, rfl, hasFields_word _, ?_, ?_, ?_, ?_, ?_⟩
  · rintro rfl; exact statusBits_toNat _
  · rintro rfl; rfl
  · rintro rfl; rfl
  · rintro rfl; rfl
  · rintro rfl; exact dutyView_toNat _

/-- Settles O45: the response holds the entry and its index. -/
theorem tableReadsAnswerTheEntry : Obligations.TableReadsAnswerTheEntry := fun _ _ _ =>
  ⟨⟨_, rfl, rfl, hasFields_word _⟩, _, rfl, rfl, hasFields_word _⟩

end Sys2Proof.Proofs
